-- ==== Sys2Proof/Word.lean ====
section
/-! DEFINITION. The word types of ESPR-EDGE-1 (spec R11, R142): bytes, 32- and 64-bit unsigned integers and
the bit pattern of a REAL (R9 `REAL_FMT`, R13), that of the IEEE 754 binary64 number it is (R142). -/

namespace Sys2Proof

/-- One byte of a host or environment frame, of an I2C transfer, or a `u8` operand (R142). -/
abbrev Byte := BitVec 8

/-- A `u32` operand, result, counter or captured timestamp (R11, R30, R142). -/
abbrev U32 := BitVec 32

/-- A `u64` operand (R142). -/
abbrev U64 := BitVec 64

/-- A REAL: a value of `REAL_FMT` (R9, R13) as the bit pattern of the IEEE 754 binary64 number it is (R142). -/
abbrev Real64 := BitVec 64

/-- A whole frame of bytes on the host or environment port, first byte first (R140, R144). -/
abbrev Frame := List Byte

/-- `ts32(t)` is `t mod 2^32` (R12, R30). A timestamp that the block captures or exposes is `Machine.timestamp`, of
`TS_WIDTH` bits. -/
def ts32 (t : Nat) : U32 := BitVec.ofNat 32 t

/-- The byte a `bool` or a pin level is reported as: 0 or 1 (R142). -/
def boolByte (b : Bool) : Byte := if b then 1 else 0

end Sys2Proof
end

