-- ==== Sys2Proof/Config.lean ====
section
/-! DEFINITION. The implementation parameters of 00_scope.md R9 as one structure of plain data, the names of the
agents' timed actions (R39) and of the step choices (R471), and the FREE VALUES: constants without a body, so that
nothing can be proved of the value they stand for. -/

namespace Sys2Proof

/-- `RANGE_MODE` (R9, R340). -/
inductive RangeMode where
  | poll
  | background
  deriving DecidableEq, Repr

/-- `BTN_MODE` (R9, R390). -/
inductive BtnMode where
  | pins
  | ladder
  deriving DecidableEq, Repr

/-- A numeric format (R9 `REAL_FMT`): a binary floating-point format with gradual underflow, as IEEE 754 builds it from
the bits `p` of its significand and its largest exponent `e`. Its values are the `± m · 2^u` with `m ≤ 2^p` and
`2 - e - p ≤ u` that lie below `2^(e+1)`, and the infinities. -/
structure RealFmt where
  /-- The bits of the significand, the leading one counted. -/
  precision : Nat
  /-- The exponent of the largest finite values. -/
  maxExponent : Nat
  deriving DecidableEq, Repr

/-- IEEE 754 binary64, the default of `REAL_FMT` (R9). -/
def RealFmt.binary64 : RealFmt where
  precision := 53
  maxExponent := 1023

/-- The formats whose every value is a binary64 value, as R142's serialisation of a `real` needs, and that have a finite
`FS_VOLTS` for every `ADC_PGA` (R253) (log entry 3). -/
def RealFmt.legal (f : RealFmt) : Bool :=
  2 ≤ f.precision && f.precision ≤ 53 && 2 ≤ f.maxExponent && f.maxExponent ≤ 1023

/-- The parameters of R9, fixed for a run (R49). A REAL parameter is a value of `REAL_FMT`, written as its binary64
pattern; the defaults here are R9's numbers in the default `REAL_FMT`, and `Config.rounded` rounds them to another.
`FS_VOLTS` is a function of `adcPga` (R253); `BAR_OF_VOLTS` is a free function (`Config.freeBarOfVolts`). A field's default value
is R9's default; a field without one is OPEN in R9. -/
structure Config where
  /-- `REAL_FMT`. -/
  realFmt : RealFmt := .binary64
  /-- `TS_WIDTH`. -/
  tsWidth : Nat := 32
  /-- `NPINS`. -/
  npins : Nat := 28
  /-- `PIN_TEMP`, OPEN. -/
  pinTemp : Nat
  /-- `PIN_TRIG`, OPEN. -/
  pinTrig : Nat
  /-- `PIN_ECHO`, OPEN. -/
  pinEcho : Nat
  /-- `PIN_FLOW`, OPEN. -/
  pinFlow : Nat
  /-- `PIN_PWM`, OPEN. -/
  pinPwm : Nat
  /-- `PIN_BTN[0..NBTN-1]`, OPEN, used when `BTN_MODE = PINS`. -/
  pinBtn : List Nat
  /-- `PIN_INIT`, OPEN: pins are numbered from the head of the list. -/
  pinInit : List Bool
  /-- `PULSE_MAX_US`. -/
  pulseMaxUs : Nat := 1000000
  /-- `ADC_ADDR`. -/
  adcAddr : BitVec 7 := 0x48
  /-- `ADC_PGA`. -/
  adcPga : BitVec 3 := 0b001
  /-- `ADC_DR`. -/
  adcDr : BitVec 3 := 0b100
  /-- `FS_COUNTS`. -/
  fsCounts : Nat := 32768
  /-- `ADC_POLL_US`. -/
  adcPollUs : Nat := 1000
  /-- `ADC_TIMEOUT_US`. -/
  adcTimeoutUs : Nat := 100000
  /-- `PWM_CLOCK_HZ`. -/
  pwmClockHz : Nat := 19200000
  /-- `PWM_DIV_MAX`. -/
  pwmDivMax : Nat := 4095
  /-- `PWM_DIV0`, OPEN. -/
  pwmDiv0 : U32
  /-- `PWM_RANGE0`, OPEN. -/
  pwmRange0 : U32
  /-- `T_BIT_US`. -/
  tBitUs : Nat := 125
  /-- `TEMP_FRAME_BITS`. -/
  tempFrameBits : Nat := 20
  /-- `MIN_TEMP`, -50.0. -/
  minTemp : Real64 := 0xC049000000000000
  /-- `MAX_TEMP`, 150.0. -/
  maxTemp : Real64 := 0x4062C00000000000
  /-- `TRIG_US`. -/
  trigUs : Nat := 10
  /-- `SPEED0`, 340.27. -/
  speed0 : Real64 := 0x40754451EB851EB8
  /-- `ECHO_TIMEOUT_US`. -/
  echoTimeoutUs : Nat := 50000
  /-- `MIN_TRIGGER_INTERVAL_US`. -/
  minTriggerIntervalUs : Nat := 100000
  /-- `GATE_M`, 0.01. -/
  gateM : Real64 := 0x3F847AE147AE147B
  /-- `SMOOTH_K`, 0.5. -/
  smoothK : Real64 := 0x3FE0000000000000
  /-- `READY_TIMEOUT_US`. -/
  readyTimeoutUs : Nat := 500000
  /-- `RANGE_MODE`. -/
  rangeMode : RangeMode := .background
  /-- `COUNTS_PER_LITRE`, OPEN. -/
  countsPerLitre : Real64
  /-- `FLOW_IDLE_US`. -/
  flowIdleUs : Nat := 1000000
  /-- `NTF_DEPTH`. -/
  ntfDepth : Nat := 16
  /-- `BTN_MODE`, OPEN. -/
  btnMode : BtnMode
  /-- `NBTN`, OPEN. -/
  nbtn : Nat
  /-- `BTN_POLL_US`. -/
  btnPollUs : Nat := 20000
  /-- `BTN_ADC_CH`, OPEN. -/
  btnAdcCh : BitVec 2
  /-- `LADDER_TABLE`, OPEN: the index is the button mask; the empty list where none is given. -/
  ladderTable : List Real64
  /-- `PRESS_ADC_CH`, OPEN. -/
  pressAdcCh : BitVec 2
  /-- `REG_SENTINEL`, 0.5. -/
  regSentinel : Real64 := 0x3FE0000000000000
  /-- `REG_TIMESTEP0`, 1.0. -/
  regTimestep0 : Real64 := 0x3FF0000000000000
  deriving DecidableEq, Repr

/-- The vector configuration CFG-V of 95_test_vectors.md section 0: R9's defaults and, for each OPEN parameter, the value
the spec's own vectors use. DESIGN CHOICE (log entry 1): `State.reset` starts from it, since R9 gives an OPEN parameter
no default. -/
def Config.vector : Config where
  pinTemp := 17
  pinTrig := 23
  pinEcho := 24
  pinFlow := 27
  pinPwm := 18
  pinBtn := [22]
  pinInit := List.replicate 22 false ++ [true] ++ List.replicate 5 false
  pwmDiv0 := 16
  pwmRange0 := 1024
  countsPerLitre := 0x40AFFE0000000000
  btnMode := .pins
  nbtn := 1
  btnAdcCh := 0
  ladderTable := []
  pressAdcCh := 1

/-- The timed actions `(unit, name)` of R39, each named once. -/
inductive Action where
  /-- `(HOST, deadline)`, R40. -/
  | hostDeadline
  /-- `(RANGE, sample)`, R344. -/
  | rangeSample
  /-- `(RANGE, retry)`, R344. -/
  | rangeRetry
  /-- `(RANGE, hostTrig)`, R347. -/
  | rangeHostTrig
  /-- `(RANGE, trigEnd)`, R341. -/
  | rangeTrigEnd
  /-- `(RANGE, echoTimeout)`, R341. -/
  | rangeEchoTimeout
  /-- `(BTN, poll)`, R390. -/
  | btnPoll
  /-- `(ADC, poll)`, R255. -/
  | adcPoll
  /-- `(REG, tick)`, R431. -/
  | regTick
  /-- `(FLOW, idle)`, R371. -/
  | flowIdle
  deriving DecidableEq, Repr

/-- Every timed action, for the quantifications of R470. -/
def Action.all : List Action :=
  [.hostDeadline, .rangeSample, .rangeRetry, .rangeHostTrig, .rangeTrigEnd, .rangeEchoTimeout, .btnPoll, .adcPoll,
    .regTick, .flowIdle]

/-- A choice of the next step among those of R471. `host` accepts the host's next command, `env` takes the environment's
next frame (ENV.PIN or ENV.TIME), and `timed a` fires a due action. -/
inductive Pick where
  | host
  | env
  | timed (a : Action)
  deriving DecidableEq, Repr, Inhabited

/-! ### Free values

Each is a draw of R16 or an OPEN function of R9. No value of any of them can be proved. A draw is applied to the draw
counter `Outside.drawn`, so that each draw is a fresh one. -/

/-- FREE VALUE (log entry 5): the step the environment and the host choose next, where no choice is scripted (R471, U6). -/
opaque Config.freePick : Nat → Pick

/-- FREE VALUE (log entry 6): a drawn pin level (R220, R288, U2, U5), where none is scripted. -/
opaque Config.freeLevel : Nat → Bool

/-- FREE VALUE (log entry 7): the answer ACK (`true`) or NACK to an I2C write (R104, U3), where none is scripted. -/
opaque Config.freeAck : Nat → Bool

/-- FREE VALUE (log entry 7): the two bytes, or NACK (`none`), that answer an I2C read (R104, U3), where none is scripted. -/
opaque Config.freeRead : Nat → Option (Byte × Byte)

/-- FREE VALUE (log entry 8): the bits from which the NaN of R416 and U8 is formed. -/
opaque Config.freeNaNBits : Nat → BitVec 64

/-- FREE VALUE (log entry 14): the smoothed range where R345's formula has an infinite operand and no value;
`Machine.someNumber` makes it a number of `REAL_FMT`, as R50 says. -/
opaque Config.freeFiltered : Nat → Real64

/-- FREE VALUE (log entry 27): the value stored of a finite operand that lies beyond every finite value of `REAL_FMT`;
`Machine.someFinite` makes it a finite REAL of that format with the operand's sign (R605). -/
opaque Config.freeOverflow : RealFmt → Real64 → Real64

/-- FREE VALUE (log entry 26): the two 9-bit packets, the first in the upper half, that a frame word of
`TEMP_FRAME_BITS` bits carries where that number is not 20: "another N needs its own layout"
(93_implementation_defined.md I12). -/
opaque Config.freePackets : Nat → U32 → BitVec 18

/-- FREE VALUE (log entry 9): which of two zeros of opposite sign `min` or `max` answers, where the spec does not say. -/
opaque Config.freeZeroTie : Real64 → Real64 → Bool

/-- FREE VALUE (log entry 10): the OPEN function `BAR_OF_VOLTS` (R9, R395, X18); `Machine.barOfVolts` makes it a
finite REAL of `REAL_FMT`. -/
opaque Config.freeBarOfVolts : Real64 → Real64

end Sys2Proof
end

