-- ==== Sys2Proof/Machine/Pins.lean ====
section
/-! DEFINITION. The GPIO pins' state (R35), the pins' owners, and the pins as reset leaves them (R36). -/

namespace Sys2Proof.Machine

/-- `dir[p]` (R35). -/
inductive Dir where
  | input
  | output
  deriving DecidableEq, Repr

/-- `edgeMode[p]` (R35). -/
inductive EdgeMode where
  | off
  | rising
  | falling
  | both
  deriving DecidableEq, Repr

/-- `owner[p]` (R35). -/
inductive Owner where
  | host
  | temp
  | range
  | flow
  | btn
  | pwm
  deriving DecidableEq, Repr

/-- The state of one pin (R35). A level 1 is `true`. -/
structure Pin where
  dir : Dir
  outLevel : Bool
  inLevel : Bool
  edgeMode : EdgeMode
  owner : Owner
  hostSub : Bool
  deriving DecidableEq, Repr

/-- Whether `p` is a button's pin: `PIN_BTN` counts only in PINS mode (R10, R36). -/
def isButtonPin (c : Config) (p : Nat) : Bool :=
  match c.btnMode with
  | .pins => c.pinBtn.contains p
  | .ladder => false

/-- The owner of pin `p` (R36). -/
def pinOwner (c : Config) (p : Nat) : Owner :=
  if p = c.pinTemp then .temp
  else if p = c.pinEcho then .range
  else if p = c.pinTrig then .range
  else if p = c.pinFlow then .flow
  else if p = c.pinPwm then .pwm
  else if isButtonPin c p then .btn
  else .host

/-- Pin `p` after reset (R36, R701): TRIG and PWM are outputs; TEMP, ECHO and FLOW detect both edges. The input level is
`PIN_INIT[p]`. -/
def resetPin (c : Config) (p : Nat) : Pin where
  dir := if p = c.pinTrig || p = c.pinPwm then .output else .input
  outLevel := false
  inLevel := c.pinInit.getD p false
  edgeMode := if p = c.pinTemp || p = c.pinEcho || p = c.pinFlow then .both else .off
  owner := pinOwner c p
  hostSub := false

/-- All `NPINS` pins after reset. -/
def resetPins (c : Config) : List Pin := (List.range c.npins).map (resetPin c)

/-- What a pin id that names no pin reads as; no rule reads one (R201, R210). -/
def noPin : Pin where
  dir := .output
  outLevel := false
  inLevel := false
  edgeMode := .off
  owner := .host
  hostSub := false

end Sys2Proof.Machine
end

