-- ==== Sys2Proof/Machine/Real.lean ====
section
/-! DEFINITION. REAL arithmetic (R13): a formula is evaluated exactly over the rationals and rounded ONCE to the numeric
format `REAL_FMT`, round to nearest, ties to even. Every value of a legal format is a binary64 value, and a REAL is held as
its binary64 pattern, which is how R142 serialises it. `Num` is an exact value: a rational, or what a binary format adds to
the rationals (a negative zero, the infinities, NaN). -/

namespace Sys2Proof.Machine

/-! ### The fields of a binary64 pattern -/

/-- The sign bit. -/
def realSign (x : Real64) : Bool := x.getLsbD 63

/-- The magnitude: the pattern without its sign bit. -/
def realMag (x : Real64) : Nat := x.toNat % 2 ^ 63

/-- The magnitude of an infinity; a larger magnitude is a NaN. -/
def infMag : Nat := 0x7FF0000000000000

/-- Not an infinity and not a NaN (R605). -/
def realFinite (x : Real64) : Bool := realMag x < infMag

/-- A NaN, of any payload and either sign (R605). -/
def realNaN (x : Real64) : Bool := infMag < realMag x

/-- +0.0 or -0.0. -/
def realZero (x : Real64) : Bool := realMag x = 0

/-- The order key: sign and magnitude read as an integer. It orders all patterns but NaNs as their values are ordered,
and gives +0.0 and -0.0 the same key (R605: they compare equal in every test); `Laws.Real` relates it to the value. -/
def realKey (x : Real64) : Int := if realSign x then -(realMag x : Int) else realMag x

/-- `x < y`; false when either is a NaN. -/
def realLt (x y : Real64) : Bool := !realNaN x && !realNaN y && realKey x < realKey y

/-- `x ≤ y`; false when either is a NaN. -/
def realLe (x y : Real64) : Bool := !realNaN x && !realNaN y && realKey x ≤ realKey y

/-- The REAL `0.0`. -/
def zero64 : Real64 := 0

/-- The REAL `1.0`. -/
def one64 : Real64 := 0x3FF0000000000000

/-- The REAL `-0.0`. -/
def negZero64 : Real64 := 0x8000000000000000

/-! ### Exact values -/

/-- The magnitude's value `m · 2^k` as a rational: `m` the significand and `k = max E 1 - 1075`, `E` the exponent field. -/
def magRat (m : Nat) : Rat :=
  let e := m / 2 ^ 52
  let f := m % 2 ^ 52
  let sig : Nat := if e = 0 then f else 2 ^ 52 + f
  let k := max e 1
  if 1075 ≤ k then ((sig * 2 ^ (k - 1075) : Nat) : Rat) else mkRat sig (2 ^ (1075 - k))

/-- The exact value of a finite REAL. It is 0 for an infinity and a NaN; a caller that can be given one asks `realFinite`
or `realNum` first. -/
def realRat (x : Real64) : Rat :=
  if realFinite x then (if realSign x then -magRat (realMag x) else magRat (realMag x)) else 0

/-- An exact value of the arithmetic of a binary format: a rational (zero is +0), or one of the values the rationals lack. -/
inductive Num where
  | fin (q : Rat)
  | negZero
  | inf (neg : Bool)
  | nan
  deriving DecidableEq, Repr

/-- The exact value of a REAL. -/
def realNum (x : Real64) : Num :=
  if realNaN x then .nan
  else if !realFinite x then .inf (realSign x)
  else if x = negZero64 then .negZero
  else .fin (realRat x)

/-- The sign of an exact value. -/
def Num.neg? : Num → Bool
  | .fin q => q < 0
  | .negZero => true
  | .inf s => s
  | .nan => false

/-- The negation of an exact value. -/
def Num.negate : Num → Num
  | .fin q => if q = 0 then .negZero else .fin (-q)
  | .negZero => .fin 0
  | .inf s => .inf (!s)
  | .nan => .nan

/-- The absolute value. -/
def Num.abs (x : Num) : Num := if x.neg? then x.negate else x

/-- The exact sum. The sign of a zero and the infinities follow IEEE 754, the format R9 names (log entry 4). -/
def Num.add : Num → Num → Num
  | .nan, _ => .nan
  | _, .nan => .nan
  | .inf s, .inf t => if s = t then .inf s else .nan
  | .inf s, _ => .inf s
  | _, .inf t => .inf t
  | .negZero, y => y
  | x, .negZero => x
  | .fin a, .fin b => .fin (a + b)

/-- The exact difference. -/
def Num.sub (x y : Num) : Num := x.add y.negate

/-- The rational of a finite exact value (0 for the others). -/
def Num.rat : Num → Rat
  | .fin q => q
  | _ => 0

/-- Whether an exact value is a zero. -/
def Num.isZero : Num → Bool
  | .fin q => q = 0
  | .negZero => true
  | _ => false

/-- The exact product; signs and infinities as in `Num.add` (log entry 4). -/
def Num.mul (x y : Num) : Num :=
  match x, y with
  | .nan, _ => .nan
  | _, .nan => .nan
  | .inf _, z => if z.isZero then .nan else .inf (x.neg? != y.neg?)
  | z, .inf _ => if z.isZero then .nan else .inf (x.neg? != y.neg?)
  | _, _ =>
    if x.rat * y.rat = 0 then (if x.neg? != y.neg? then .negZero else .fin 0) else .fin (x.rat * y.rat)

/-- `x < y` on exact values; false on a NaN. -/
def Num.lt : Num → Num → Bool
  | .nan, _ => false
  | _, .nan => false
  | .inf s, .inf t => s && !t
  | .inf s, _ => s
  | _, .inf t => !t
  | x, y => x.rat < y.rat

/-! ### Rounding once to `REAL_FMT` -/

/-- The integer nearest `n / d`, ties to even (`d > 0`). -/
def nearestEven (n d : Nat) : Nat :=
  let q := n / d
  let r := n % d
  if 2 * r < d then q
  else if d < 2 * r then q + 1
  else if q % 2 = 0 then q else q + 1

/-- `⌊log₂ (n / d)⌋` for positive `n` and `d`. -/
def floorLog2 (n d : Nat) : Int :=
  let e : Int := (Nat.log2 n : Int) - Nat.log2 d
  let reaches : Bool := if 0 ≤ e then d * 2 ^ e.toNat ≤ n else d ≤ n * 2 ^ (-e).toNat
  if reaches then e else e - 1

/-- The magnitude pattern whose value is `m` units of `2^(k - 1074)`, for `m ≤ 2^53`: the significand is shifted up to
binary64's leading bit, or as far as the exponent field reaches. A carry to `2^53` runs into the exponent field. -/
def packMag (m k : Nat) : Nat :=
  let shift := min (52 - Nat.log2 m) k
  if m = 0 then 0 else (k - shift) * 2 ^ 52 + m * 2 ^ shift

/-- The magnitude pattern to which format `f` rounds the positive rational `n / d`: the significand in units of `2^u`, `u`
the last place of the binade (never below that of the format's least binade), rounded to nearest even. A value that
rounds to `2^(maxExponent + 1)` or more gives the infinity, as IEEE 754 rounds. -/
def roundMag (f : RealFmt) (n d : Nat) : Nat :=
  let u : Int := max (floorLog2 n d - (f.precision - 1)) (2 - f.maxExponent - f.precision)
  let m := if 0 ≤ u then nearestEven n (d * 2 ^ u.toNat) else nearestEven (n * 2 ^ (-u).toNat) d
  let k := (u + 1074).toNat
  if 2 ^ (f.maxExponent + 1075) ≤ m * 2 ^ k then infMag else min (packMag m k) infMag

/-- The pattern with the given sign and magnitude. -/
def signed (neg : Bool) (m : Nat) : Real64 := BitVec.ofNat 64 ((if neg then 2 ^ 63 else 0) + m)

/-- The REAL of format `f` nearest a rational (R13). -/
def roundRat (f : RealFmt) (q : Rat) : Real64 :=
  if q = 0 then zero64 else signed (q < 0) (roundMag f q.num.natAbs q.den)

/-- The quiet NaN that stands for a NaN between two formulas; what a reply shows is `freshReal`'s, and no
register stores it (R50). -/
def nan64 : Real64 := 0x7FF8000000000000

/-- An exact value rounded once to format `f` (R13). -/
def Num.round (f : RealFmt) : Num → Real64
  | .fin q => roundRat f q
  | .negZero => negZero64
  | .inf s => signed s infMag
  | .nan => nan64

/-- A REAL of any format as a REAL of format `f`: its value rounded once; an infinity or a NaN stays (R13, R50). -/
def toFormat (f : RealFmt) (x : Real64) : Real64 := if realFinite x then (realNum x).round f else x

/-- Whether a REAL is a value of format `f` (R50). -/
def inFormat (f : RealFmt) (x : Real64) : Bool := toFormat f x = x

/-- A free finite REAL of format `f` with the sign of `x`, stored of a finite operand `x` that lies beyond the format's
finite values (R605, log entry 27). -/
def someFinite (f : RealFmt) (x : Real64) : Real64 :=
  let v := toFormat f (Config.freeOverflow f x)
  if realFinite v && realSign v = realSign x then v else signed (realSign x) 0

/-! ### Conversions and selections of R13 -/

/-- `real(n)` inside a formula that its rule calls exact and rounded once: the integer itself. R13 would round it on its
own where a narrow `REAL_FMT` cannot represent it (log entry 29). -/
def ofInt (n : Int) : Num := .fin n

/-- `trunc(x)`: toward zero. -/
def trunc (q : Rat) : Int := if q < 0 then -(-q).floor else q.floor

/-- `round_ha(x)`: to the nearest integer, halves away from zero. -/
def roundHa (q : Rat) : Int := if q < 0 then -(-q + 1 / 2).floor else (q + 1 / 2).floor

/-- `max(x, b)`. `max(-0.0, 0.0)` is `0.0` (95_test_vectors.md V-X7); which zero the other order of unlike zeros
gives is free (log entry 9). -/
def rmax (x b : Real64) : Real64 :=
  if realLt b x then x
  else if realZero x && realZero b then
    (if x = b then x else if x = negZero64 then b else if Config.freeZeroTie x b then x else b)
  else b

/-- `min(x, b)`; which of two zeros of opposite sign it gives is free (log entry 9). -/
def rmin (x b : Real64) : Real64 :=
  if realLt x b then x
  else if realZero x && realZero b then (if x = b then x else if Config.freeZeroTie x b then x else b)
  else b

/-- `clamp(x, lo, hi) = min(max(x, lo), hi)`. -/
def clamp (x lo hi : Real64) : Real64 := rmin (rmax x lo) hi

/-- `BAR_OF_VOLTS`, an OPEN total function whose values are finite REALs of `REAL_FMT` (R395, log entry 10). -/
def barOfVolts (f : RealFmt) (v : Real64) : Real64 :=
  let b := toFormat f (Config.freeBarOfVolts v)
  if realFinite b then b else zero64

end Sys2Proof.Machine
end

