-- ==== Sys2Proof/Machine/Configuration.lean ====
section
/-! DEFINITION. Which configurations are well formed (R10), one named check for each clause; a model refuses the others. -/

namespace Sys2Proof

open Sys2Proof.Machine

/-- `round_ha(timeStep × 10^6)`, the period in microseconds of a time step in seconds (R47, R439). -/
def periodOf (sec : Real64) : Int := roundHa (realRat sec * 1000000)

/-- A period that R439 accepts: `[1, 2^31 - 1]`. -/
def legalPeriod (p : Int) : Bool := 1 ≤ p && p ≤ 2 ^ 31 - 1

/-- The pin ids that parameters name; `PIN_BTN` counts only in PINS mode (R10). -/
def Config.namedPins (c : Config) : List Nat :=
  [c.pinTemp, c.pinTrig, c.pinEcho, c.pinFlow, c.pinPwm] ++
    (match c.btnMode with | .pins => c.pinBtn | .ladder => [])

/-- "All pin ids named by parameters are distinct and less than `NPINS`". -/
def Config.pinsDistinct (c : Config) : Bool :=
  decide c.namedPins.Nodup && c.namedPins.all (· < c.npins)

/-- Every pin has an initial level, and in PINS mode every button a pin (R9: `PIN_INIT` and `PIN_BTN[0..NBTN-1]`). -/
def Config.pinsComplete (c : Config) : Bool :=
  c.pinInit.length = c.npins &&
    (match c.btnMode with | .pins => decide (c.pinBtn.length = c.nbtn) | .ladder => true)

/-- "`PWM_DIV0` is in `[1, PWM_DIV_MAX]` and `PWM_RANGE0` is in `[1, 2^32-1]`". -/
def Config.pwmInRange (c : Config) : Bool :=
  1 ≤ c.pwmDiv0.toNat && c.pwmDiv0.toNat ≤ c.pwmDivMax && 1 ≤ c.pwmRange0.toNat

/-- The parameters that R10 requires to be greater than 0, and `FS_COUNTS`, which R256 divides by (log entry 2). -/
def Config.timesPositive (c : Config) : Bool :=
  realLt zero64 c.countsPerLitre && realLt zero64 c.speed0 && 0 < c.tBitUs && 0 < c.trigUs && 0 < c.echoTimeoutUs &&
    0 < c.minTriggerIntervalUs && 0 < c.btnPollUs && 0 < c.adcPollUs && 0 < c.adcTimeoutUs && 0 < c.fsCounts

/-- "`MIN_TEMP < MAX_TEMP`". -/
def Config.tempOrdered (c : Config) : Bool := realLt c.minTemp c.maxTemp

/-- `LADDER_TABLE` has at least two entries, of distinct voltages, and at most `2^NBTN`, in either mode; in PINS mode it
may also be absent, as CFG-V has none (log entry 2). -/
def Config.ladderOk (c : Config) : Bool :=
  (c.btnMode = .pins && c.ladderTable.isEmpty) ||
    (2 ≤ c.ladderTable.length && c.ladderTable.length ≤ 2 ^ c.nbtn && decide (c.ladderTable.map realKey).Nodup)

/-- The REAL parameters. -/
def Config.reals (c : Config) : List Real64 :=
  [c.minTemp, c.maxTemp, c.speed0, c.gateM, c.smoothK, c.countsPerLitre, c.regSentinel, c.regTimestep0] ++ c.ladderTable

/-- Every REAL parameter is a finite number (log entry 2). -/
def Config.realsFinite (c : Config) : Bool := c.reals.all realFinite

/-- Every REAL parameter is a value of `REAL_FMT` (R9, R50), as every finite binary64 pattern is one of the default format
(log entry 3). -/
def Config.realsInFormat (c : Config) : Bool := c.realFmt = .binary64 || c.reals.all (inFormat c.realFmt)

/-- The configuration with its REAL parameters, given as binary64 patterns, rounded to its `REAL_FMT` (R13): R9's defaults
are numbers of no format. Under the default `REAL_FMT` there is nothing to round. -/
def Config.rounded (c : Config) : Config :=
  if c.realFmt = .binary64 then c
  else { c with
    minTemp := toFormat c.realFmt c.minTemp
    maxTemp := toFormat c.realFmt c.maxTemp
    speed0 := toFormat c.realFmt c.speed0
    gateM := toFormat c.realFmt c.gateM
    smoothK := toFormat c.realFmt c.smoothK
    countsPerLitre := toFormat c.realFmt c.countsPerLitre
    regSentinel := toFormat c.realFmt c.regSentinel
    regTimestep0 := toFormat c.realFmt c.regTimestep0
    ladderTable := c.ladderTable.map (toFormat c.realFmt) }

/-- `NBTN` is 1..32 (R9), the queue's depth fits a `u8` (R466), and `REG_TIMESTEP0` gives a legal period (R47, R439), as
the default 1.0 s does. -/
def Config.sizesOk (c : Config) : Bool :=
  1 ≤ c.nbtn && c.nbtn ≤ 32 && c.ntfDepth ≤ 255 && (c.regTimestep0 = one64 || legalPeriod (periodOf c.regTimestep0))

/-- Every value of `REAL_FMT` fits the binary64 pattern it is reported in and a timestamp the `u32` (R142), and the frame
fits the `u32` accumulator (R41) and holds its two 9-bit packets (R153) (log entry 3). -/
def Config.formatsOk (c : Config) : Bool :=
  c.realFmt.legal && 1 ≤ c.tsWidth && c.tsWidth ≤ 32 && 18 ≤ c.tempFrameBits && c.tempFrameBits ≤ 32

/-- A well-formed configuration (R10). The clauses are joined to the right, so that evaluation meets the first one first. -/
def Config.wellFormed (c : Config) : Bool :=
  c.pinsDistinct && (c.pinsComplete && (c.pwmInRange && (c.timesPositive && (c.tempOrdered && (c.ladderOk &&
    (c.realsFinite && (c.sizesOk && (c.formatsOk && c.realsInFormat))))))))

end Sys2Proof
end

