-- ==== Sys2Proof/Machine/State.lean ====
section
/-! DEFINITION. The machine's state (10_state.md R30 to R48), what it exchanges with the outside (R8, R49), the reasons a
step can stop, and the state right after the reset step (R701, R702). State is plain data. -/

namespace Sys2Proof.Machine

/-! ### The host port (R33, R40, R143) -/

/-- The status byte of a response (R600). Codes 8 to 255 are never returned (X9): no constructor stands for them. -/
inductive Status where
  | ok
  | illegal
  | badarg
  | busy
  | timeout
  | absent
  | ioerr
  | empty
  deriving DecidableEq, Repr

/-- One result of a response, with its type of R142. -/
inductive Val where
  | u8 (v : Byte)
  | u32 (v : U32)
  | real (v : Real64)
  deriving DecidableEq, Repr

/-- A response: its status and results (R143); `Response.frame` writes its bytes. -/
structure Response where
  status : Status
  results : List Val
  deriving DecidableEq, Repr

/-- The opcode and operands of a command that holds the port (R40, R723). -/
inductive HeldOp where
  | pulse (pin level : Byte) (width : U32)
  | waitEdge (pin : Byte) (timeout : U32)
  | getVoltage (ch : Byte)
  | measure
  | ready
  | getBar
  deriving DecidableEq, Repr

/-- The hold record (R40): the command, the time it was accepted and its deadline, if it sets one. -/
structure Hold where
  op : HeldOp
  tAcc : Nat
  tDl : Option Nat
  deriving DecidableEq, Repr

/-- `port` (R33). -/
inductive Port where
  | idle
  | held (h : Hold)
  deriving DecidableEq, Repr

/-! ### The pending timed actions (R39) -/

/-- The due time of each pending timed action, `none` where it is not pending. One field for each `(unit, name)`, so at
most one action of a pair is pending and equal sets are equal data (R39). -/
structure Timers where
  hostDeadline : Option Nat
  rangeSample : Option Nat
  rangeRetry : Option Nat
  rangeHostTrig : Option Nat
  rangeTrigEnd : Option Nat
  rangeEchoTimeout : Option Nat
  btnPoll : Option Nat
  adcPoll : Option Nat
  regTick : Option Nat
  flowIdle : Option Nat
  deriving DecidableEq, Repr

/-! ### The units -/

/-- The host stopwatch (R32). -/
structure Stopwatch where
  swRunning : Bool
  swStart : Nat
  swStop : Nat
  deriving DecidableEq, Repr

/-- `presence` of the ADC (R37). -/
inductive Presence where
  | unknown
  | present
  | absent
  deriving DecidableEq, Repr

/-- Who asked for a conversion (R37). -/
inductive AdcReq where
  | host
  | btn
  | press
  deriving DecidableEq, Repr

/-- `phase` of the ADC master (R37). -/
inductive AdcPhase where
  | idle
  | converting (ch : BitVec 2) (req : AdcReq) (tStart : Nat)
  deriving DecidableEq, Repr

/-- The ADC master (R37). -/
structure Adc where
  presence : Presence
  phase : AdcPhase
  queue : List (BitVec 2 × AdcReq)
  deriving DecidableEq, Repr

/-- The PWM unit (R38). -/
structure Pwm where
  divisor : U32
  range : U32
  value : U32
  frac : Real64
  enabled : Bool
  deriving DecidableEq, Repr

/-- A published temperature sample (R41). -/
structure Sample where
  value : Real64
  valid : Bool
  ts : U32
  deriving DecidableEq, Repr

/-- The temperature decoder (R41). -/
structure Temp where
  bitCount : Nat
  word : U32
  lastRise : Option U32
  sample : Sample
  frames : U32
  parityErr : U32
  prefixErr : U32
  rangeErr : U32
  syncErr : U32
  deriving DecidableEq, Repr

/-- `phase` of the range finder (R42). -/
inductive RangePhase where
  | idle
  | trig
  | waitRise
  | waitFall
  deriving DecidableEq, Repr

/-- Who asked for a measurement (R42). -/
inductive RangeReq where
  | host
  | sampler
  deriving DecidableEq, Repr

/-- `attempt` of the sampler (R42). -/
inductive Attempt where
  | first
  | retry
  deriving DecidableEq, Repr

/-- The range finder (R42). -/
structure RangeFinder where
  phase : RangePhase
  req : RangeReq
  attempt : Attempt
  tTrigEnd : Nat
  rise : U32
  lastTrigger : Option Nat
  speed : Real64
  filtered : Real64
  count : U32
  valid : Bool
  deriving DecidableEq, Repr

/-- The flow counter (R43). -/
structure Flow where
  count : U32
  armed : Bool
  target : U32
  flowing : Bool
  lastEdge : Nat
  deriving DecidableEq, Repr

/-- The button unit (R44); button `i`'s last change is the `i`-th entry. -/
structure Buttons where
  mask : U32
  lastChange : List Nat
  polling : Bool
  deriving DecidableEq, Repr

/-- The PidState (R46). -/
structure Pid where
  pGain : Real64
  iGain : Real64
  dGain : Real64
  iMin : Real64
  iMax : Real64
  integrator : Real64
  lastPosition : Real64
  deriving DecidableEq, Repr

/-- `state` of the regulator (R47). -/
inductive RegState where
  | stopped
  | running
  deriving DecidableEq, Repr

/-- The regulator (R47). -/
structure Regulator where
  state : RegState
  target : Real64
  timeStep : Real64
  periodUs : Nat
  power : Bool
  latestTemp : Real64
  latestDrive : Real64
  fault : Bool
  nextDue : Nat
  deriving DecidableEq, Repr

/-- The kinds of notification (R460). Kinds 0 and 6 to 255 are never produced (X8): no constructor stands for them. -/
inductive NtfKind where
  | flowStart
  | flowStop
  | flowTarget
  | button
  | edge
  deriving DecidableEq, Repr

/-- A notification record (R460). -/
structure Ntf where
  kind : NtfKind
  a : U32
  b : U32
  c : U32
  deriving DecidableEq, Repr

/-- The notification unit (R48), its queue oldest first. -/
structure NtfUnit where
  queue : List Ntf
  enable : Byte
  dropped : U32
  deriving DecidableEq, Repr

/-! ### The outside -/

/-- A transaction on the I2C port with the answer it got (R104): `ack` is ACK, `none` is NACK; the two bytes of a read
stand in the order in which they travel. -/
inductive BusOp where
  | write (addr : BitVec 7) (bytes : Frame) (ack : Bool)
  | read (addr : BitVec 7) (n : Nat) (answer : Option (Byte × Byte))
  deriving DecidableEq, Repr

/-- What the host and the environment present and choose (R8, R49, R471, R472): MODEL STATE, not the block's. Each list
holds what is to come, first to be taken first; where a list of answers or choices is empty, the answer is a free value
of Config applied to `drawn`, the count of such draws. -/
structure Outside where
  /-- Command frames the host has sent and the port has not accepted (R112, R140). -/
  hostIn : List Frame
  /-- Frames on the environment port not yet taken (R144). -/
  envIn : List Frame
  /-- The choices of the next step (R471). -/
  picks : List Pick
  /-- Drawn pin levels (R220, R288). -/
  levels : List Bool
  /-- Answers to I2C writes (R104). -/
  acks : List Bool
  /-- Answers to I2C reads (R104): the two bytes, first byte first, or NACK. -/
  reads : List (Option (Byte × Byte))
  /-- How many draws took a free value. -/
  drawn : Nat
  deriving DecidableEq, Repr

/-! ### The state -/

/-- The whole state: the block's (R30 to R48), its configuration (fixed for a run, R49), and what it exchanges with the
outside. -/
structure State where
  /-- The parameters of R9. No step changes them (R49). -/
  cfg : Config
  /-- `now` (R30). -/
  now : Nat
  /-- The host port (R33). -/
  port : Port
  /-- The pending timed actions (R39). -/
  timers : Timers
  /-- The pins, numbered from the head of the list (R35). -/
  pins : List Pin
  /-- The stopwatch (R32). -/
  clk : Stopwatch
  /-- The ADC master (R37). -/
  adc : Adc
  /-- The PWM actuator (R38). -/
  pwm : Pwm
  /-- The temperature decoder (R41). -/
  temp : Temp
  /-- The range finder (R42). -/
  range : RangeFinder
  /-- The flow counter (R43). -/
  flow : Flow
  /-- The button unit (R44). -/
  btn : Buttons
  /-- The PID controller (R46). -/
  pid : Pid
  /-- The regulator (R47). -/
  reg : Regulator
  /-- The notification unit (R48). -/
  ntf : NtfUnit
  /-- What is to come from the outside (R8): model state. -/
  outside : Outside
  /-- The responses returned to the host, oldest first (R140): model state. -/
  responses : List Response
  /-- The transactions made on the I2C port, oldest first (R104): model state. -/
  bus : List BusOp
  deriving DecidableEq, Repr

/-! ### Why a step stops -/

/-- The faults: a timed action that fires in a state in which its rule gives it no meaning. No run reaches one
(R623; 93_implementation_defined.md: a correct model never reaches a fault), and stopping there is safe. -/
inductive Fault where
  /-- `(HOST, deadline)` fires while no command with a deadline holds the port (R40). Raised by `fire`; safe. -/
  | deadlineWithoutHold
  /-- `(ADC, poll)` fires while no conversion is in flight (R255). Raised by `fire`; safe. -/
  | pollWithoutConversion
  /-- `(REG, tick)` fires while the regulator is STOPPED (R431: "only while RUNNING"). Raised by `fire`; safe. -/
  | tickWhileStopped
  deriving DecidableEq, Repr

/-- The refusals. -/
inductive Refusal where
  /-- An instruction whose arm has no meaning yet. Raised by an arm of `exec`, of which none is left; safe. -/
  | notModelled (mnemonic : String)
  /-- The configuration is ill formed, so no run starts from it (R10, X14). Raised by `step`; safe. -/
  | illFormedConfig
  /-- A frame that is empty or whose length is not its opcode's: the transport delivers only whole frames (R141), so the
  spec gives it no behaviour. Raised by `acceptHost` and `takeEnv`; safe. -/
  | brokenFrame
  deriving DecidableEq, Repr

/-! ### Reset -/

/-- No timed action pending. -/
def noTimers : Timers where
  hostDeadline := none
  rangeSample := none
  rangeRetry := none
  rangeHostTrig := none
  rangeTrigEnd := none
  rangeEchoTimeout := none
  btnPoll := none
  adcPoll := none
  regTick := none
  flowIdle := none

/-- Nothing presented or chosen yet. -/
def noOutside : Outside where
  hostIn := []
  envIn := []
  picks := []
  levels := []
  acks := []
  reads := []
  drawn := 0

/-- The state that reset leaves under a configuration whose REAL parameters are values of its `REAL_FMT`. -/
def State.resetAs (c : Config) (ack : Bool) (answer : Option (Byte × Byte)) : State where
  cfg := c
  now := 0
  port := .idle
  timers := { noTimers with
    rangeSample := match c.rangeMode with | .background => some 0 | .poll => none
    btnPoll := some c.btnPollUs }
  pins := resetPins c
  clk := { swRunning := false, swStart := 0, swStop := 0 }
  adc := { presence := if ack && answer.isSome then .present else .absent, phase := .idle, queue := [] }
  pwm := { divisor := c.pwmDiv0, range := c.pwmRange0, value := 0, frac := zero64, enabled := true }
  temp := { bitCount := 0, word := 0, lastRise := none, sample := { value := zero64, valid := false, ts := 0 },
            frames := 0, parityErr := 0, prefixErr := 0, rangeErr := 0, syncErr := 0 }
  range := { phase := .idle, req := .sampler, attempt := .first, tTrigEnd := 0, rise := 0, lastTrigger := none,
             speed := c.speed0, filtered := zero64, count := 0, valid := false }
  flow := { count := 0, armed := false, target := 0, flowing := false, lastEdge := 0 }
  btn := { mask := 0, lastChange := List.replicate c.nbtn 0, polling := false }
  pid := { pGain := zero64, iGain := zero64, dGain := zero64, iMin := zero64, iMax := zero64, integrator := zero64,
           lastPosition := zero64 }
  reg := { state := .stopped, target := zero64, timeStep := c.regTimestep0, periodUs := (periodOf c.regTimestep0).toNat,
           power := false, latestTemp := zero64, latestDrive := zero64, fault := false, nextDue := 0 }
  ntf := { queue := [], enable := 0, dropped := 0 }
  outside := noOutside
  responses := []
  bus := .write c.adcAddr [1] ack :: (if ack then [.read c.adcAddr 2 answer] else [])

/-- The state the reset step leaves (R701, R702) under configuration `c`, its REAL parameters rounded to its `REAL_FMT`
(R13, R50), where the I2C transactions of the reset probe (R259) are answered `ack` and `answer`: the read is made only
after an ACK. -/
def State.resetWith (c : Config) (ack : Bool) (answer : Option (Byte × Byte)) : State := State.resetAs c.rounded ack answer

/-- The machine right after reset, in the spec's vector configuration (log entry 1), its reset probe answered, so that the
ADC is PRESENT as 95_test_vectors.md says of CFG-V (DESIGN CHOICE, log entry 11: R702 leaves it to the draws). -/
def State.reset : State := State.resetWith Config.vector true (some (0, 0))

end Sys2Proof.Machine
end

