-- ==== Sys2Proof/Machine/Ops.lean ====
section
/-! DEFINITION. The named operations of R12 over the state: draws, timed actions, the pins, the I2C port, responses and
holds. The block takes no exception (R604): a status in a response is the whole of its error reporting, and `raise` is the
one operation that ends a command so (R602). -/

namespace Sys2Proof.Machine

/-- What executing an instruction or firing a timed action answers. -/
abbrev Result := Host.Outcome State Fault Refusal

/-! ### Responses (R143, R600) -/

/-- The code of a status (R600). -/
def Status.code : Status → Byte
  | .ok => 0
  | .illegal => 1
  | .badarg => 2
  | .busy => 3
  | .timeout => 4
  | .absent => 5
  | .ioerr => 6
  | .empty => 7

/-- The two bytes of a 16-bit word, high byte first (R101). -/
def bytes16 (v : BitVec 16) : Frame := [v.extractLsb' 8 8, v.extractLsb' 0 8]

/-- The four bytes of a `u32`, most significant first (R142). -/
def bytes32 (v : U32) : Frame :=
  [v.extractLsb' 24 8, v.extractLsb' 16 8, v.extractLsb' 8 8, v.extractLsb' 0 8]

/-- The eight bytes of a `u64` or of a `real`'s pattern, most significant first (R142). -/
def bytes64 (v : BitVec 64) : Frame :=
  [v.extractLsb' 56 8, v.extractLsb' 48 8, v.extractLsb' 40 8, v.extractLsb' 32 8,
    v.extractLsb' 24 8, v.extractLsb' 16 8, v.extractLsb' 8 8, v.extractLsb' 0 8]

/-- The bytes of one result (R142). -/
def Val.bytes : Val → Frame
  | .u8 v => [v]
  | .u32 v => bytes32 v
  | .real v => bytes64 v

/-- The response frame on the wire: the status byte, then the results (R143). -/
def Response.frame (r : Response) : Frame := r.status.code :: r.results.flatMap Val.bytes

/-- A `bool` or level result, a `u8` that is 0 or 1 (R142). -/
def Val.bool (b : Bool) : Val := .u8 (boolByte b)

/-- `reply(status, results...)` (R12): the response is returned to the host. -/
def State.reply (s : State) (st : Status) (results : List Val) : State :=
  { s with responses := s.responses ++ [{ status := st, results := results }] }

/-- `raise <STATUS>` (R12, R602): the command ends with that status and the zero results given (R143); nothing else is
written. -/
def State.raise (s : State) (st : Status) (zeros : List Val) : State := s.reply st zeros

/-! ### Timed actions (R39) -/

/-- The due time of a pending action. -/
def Timers.get (t : Timers) : Action → Option Nat
  | .hostDeadline => t.hostDeadline
  | .rangeSample => t.rangeSample
  | .rangeRetry => t.rangeRetry
  | .rangeHostTrig => t.rangeHostTrig
  | .rangeTrigEnd => t.rangeTrigEnd
  | .rangeEchoTimeout => t.rangeEchoTimeout
  | .btnPoll => t.btnPoll
  | .adcPoll => t.adcPoll
  | .regTick => t.regTick
  | .flowIdle => t.flowIdle

/-- Set or clear an action's due time. -/
def Timers.set (t : Timers) (a : Action) (due : Option Nat) : Timers :=
  match a with
  | .hostDeadline => { t with hostDeadline := due }
  | .rangeSample => { t with rangeSample := due }
  | .rangeRetry => { t with rangeRetry := due }
  | .rangeHostTrig => { t with rangeHostTrig := due }
  | .rangeTrigEnd => { t with rangeTrigEnd := due }
  | .rangeEchoTimeout => { t with rangeEchoTimeout := due }
  | .btnPoll => { t with btnPoll := due }
  | .adcPoll => { t with adcPoll := due }
  | .regTick => { t with regTick := due }
  | .flowIdle => { t with flowIdle := due }

/-- `schedule(u, name, due)` (R12); an action already pending gets the new due time (R39). -/
def State.schedule (s : State) (a : Action) (due : Nat) : State := { s with timers := s.timers.set a (some due) }

/-- `cancel(u, name)` (R12). -/
def State.cancel (s : State) (a : Action) : State := { s with timers := s.timers.set a none }

/-! ### Holds (R40) -/

/-- Hold the port with a command that sets no deadline (R40, D69). -/
def State.hold (s : State) (op : HeldOp) : State :=
  { s with port := .held { op := op, tAcc := s.now, tDl := none } }

/-- Hold the port until the deadline `dl` at the latest (R40). -/
def State.holdUntil (s : State) (op : HeldOp) (dl : Nat) : State :=
  { s with
    port := .held { op := op, tAcc := s.now, tDl := some dl }
    timers := s.timers.set .hostDeadline (some dl) }

/-- A held command replies, the port returns to IDLE, and a pending `(HOST, deadline)` is cancelled (R40). -/
def State.complete (s : State) (st : Status) (results : List Val) : State :=
  { s with
    port := .idle
    timers := s.timers.set .hostDeadline none
    responses := s.responses ++ [{ status := st, results := results }] }

/-! ### Pins (R35) -/

/-- The state of pin `p`. -/
def State.pin (s : State) (p : Nat) : Pin := s.pins.getD p noPin

/-- Replace the state of pin `p`. -/
def State.setPin (s : State) (p : Nat) (x : Pin) : State := { s with pins := s.pins.set p x }

/-- `PinOut(p, level)` (R12): the output latch of `p`. -/
def State.pinOut (s : State) (p : Nat) (level : Bool) : State := s.setPin p { s.pin p with outLevel := level }

/-! ### Timestamps (R30) -/

/-- The timestamp that the block captures or exposes at time `t`: `t mod 2^TS_WIDTH`, which is `ts32(t)` at the default
width of 32 (R12, R30; log entry 3). -/
def timestamp (c : Config) (t : Nat) : U32 := BitVec.ofNat 32 (t % 2 ^ c.tsWidth)

/-- The duration from the captured timestamp `a` to the later one `b`: `(b - a) mod 2^TS_WIDTH`, which is
`(b - a) mod 2^32` at the default width of 32 (R30; log entry 3). -/
def duration (c : Config) (a b : U32) : U32 := BitVec.ofNat 32 ((b - a).toNat % 2 ^ c.tsWidth)

/-! ### Draws (R16) -/

/-- Count one draw that took a free value. -/
def Outside.tick (o : Outside) : Outside := { o with drawn := o.drawn + 1 }

/-- A drawn level (U2, U5): the environment's next scripted one, else a free value. -/
def State.drawLevel (s : State) : Bool × State :=
  match s.outside.levels with
  | b :: rest => (b, { s with outside := { s.outside with levels := rest } })
  | [] => (Config.freeLevel s.outside.drawn, { s with outside := s.outside.tick })

/-- The NaN with the sign and payload of the given bits, its payload never empty (U8, log entry 8). -/
def someNaN (bits : BitVec 64) : Real64 :=
  signed (realSign bits) (infMag + max 1 (bits.toNat % 2 ^ 52))

/-- A formula's exact value rounded once; where it is a NaN, which NaN is free (U8, log entry 8). -/
def State.freshReal (s : State) (x : Num) : Real64 × State :=
  match x with
  | .nan => (someNaN (Config.freeNaNBits s.outside.drawn), { s with outside := s.outside.tick })
  | x => (x.round s.cfg.realFmt, s)

/-- A free value that is a number of format `f`, never a NaN (R50, log entry 14). -/
def someNumber (f : RealFmt) (x : Real64) : Real64 := if realNaN x then zero64 else toFormat f x

/-- A formula's exact value rounded once, to be stored in a REAL field: where infinite operands leave it no value, the
value stored is free, but no NaN (R50, log entry 14). -/
def State.storedReal (s : State) (x : Num) : Real64 × State :=
  match x with
  | .nan =>
    (someNumber s.cfg.realFmt (Config.freeFiltered s.outside.drawn), { s with outside := s.outside.tick })
  | x => (x.round s.cfg.realFmt, s)

/-! ### REAL operands (R142, R13) -/

/-- What a REAL field stores of a finite operand: the operand rounded once to `REAL_FMT` (R13); of an operand that rounds to
no finite value of it a free one, since every stored REAL stays finite (R605, log entry 27). -/
def State.toReal (s : State) (x : Real64) : Real64 :=
  let r := toFormat s.cfg.realFmt x
  if realFinite r then r else someFinite s.cfg.realFmt x

/-! ### The I2C port (R104) -/

/-- The environment's answer to an I2C write, ACK or NACK (U3). -/
def Outside.nextAck (o : Outside) : Bool × Outside :=
  match o.acks with
  | b :: rest => (b, { o with acks := rest })
  | [] => (Config.freeAck o.drawn, o.tick)

/-- The environment's answer to an I2C read, two bytes or NACK (U3). -/
def Outside.nextRead (o : Outside) : Option (Byte × Byte) × Outside :=
  match o.reads with
  | b :: rest => (b, { o with reads := rest })
  | [] => (Config.freeRead o.drawn, o.tick)

/-- `I2CWrite(ADC_ADDR, bytes)` (R104): one transaction in this step, taking no time. -/
def State.i2cWrite (s : State) (bytes : Frame) : Bool × State :=
  let (ack, o) := s.outside.nextAck
  (ack, { s with outside := o, bus := s.bus ++ [.write s.cfg.adcAddr bytes ack] })

/-- `I2CRead(ADC_ADDR, 2)` (R104): the two bytes `[b0, b1]`, the first received first. -/
def State.i2cRead (s : State) : Option (Byte × Byte) × State :=
  let (ans, o) := s.outside.nextRead
  (ans, { s with outside := o, bus := s.bus ++ [.read s.cfg.adcAddr 2 ans] })

/-- The 16-bit value of the two bytes of a register read, the high byte first: `v = b0 ++ b1 = (high << 8) | low`
(R101, R105). -/
def word16 (bytes : Byte × Byte) : BitVec 16 := bytes.1 ++ bytes.2

/-- A register read (R105): a pointer write, then, if it was acknowledged, a two-byte read, whose bytes give the value;
complete only when both transactions ACK (log entry 12: no read follows a NACKed pointer write). -/
def State.readReg (s : State) (ptr : Byte) : Option (BitVec 16) × State :=
  let (ack, s) := s.i2cWrite [ptr]
  if ack then
    let (answer, s) := s.i2cRead
    (answer.map word16, s)
  else (none, s)

/-- A register write (R105): one three-byte transaction. -/
def State.writeReg (s : State) (ptr : Byte) (v : BitVec 16) : Bool × State := s.i2cWrite (ptr :: bytes16 v)

end Sys2Proof.Machine
end

