-- ==== Sys2Proof/Syntax.lean ====
section
/-! DEFINITION. The instructions of ESPR-EDGE-1: its 47 host commands and 2 environment inputs, one
constructor per row of spec/opcode_table.json (30_encoding.md R146). -/

namespace Sys2Proof

/-- Every host command and environment input of R146. An operand is carried exactly as its bytes give it
(R142, R148); whether its value is legal is decided when the command runs (R147, R601). -/
inductive Instr where
  /-- GPIO.SETDIR, 0x00, R220. -/
  | gpioSetdir (pin dir : Byte)
  /-- GPIO.WRITE, 0x01, R221. -/
  | gpioWrite (pin level : Byte)
  /-- GPIO.READ, 0x02, R222. -/
  | gpioRead (pin : Byte)
  /-- GPIO.PULSE, 0x03, R223. -/
  | gpioPulse (pin level : Byte) (width : U32)
  /-- GPIO.SETEDGE, 0x04, R224. -/
  | gpioSetedge (pin mode : Byte)
  /-- GPIO.WAITEDGE, 0x05, R225. -/
  | gpioWaitedge (pin : Byte) (timeout : U32)
  /-- GPIO.SUBSCRIBE, 0x06, R226. -/
  | gpioSubscribe (pin : Byte)
  /-- GPIO.UNSUBSCRIBE, 0x07, R227. -/
  | gpioUnsubscribe (pin : Byte)
  /-- CLK.NOW, 0x10, R230. -/
  | clkNow
  /-- SW.START, 0x11, R231. -/
  | swStart
  /-- SW.STOP, 0x12, R232. -/
  | swStop
  /-- SW.ELAPSED, 0x13, R233. -/
  | swElapsed
  /-- ADC.OPEN, 0x20, R260. -/
  | adcOpen
  /-- ADC.GETVOLTAGE, 0x21, R261. -/
  | adcGetvoltage (ch : Byte)
  /-- PWM.SETVALUE, 0x30, R282. -/
  | pwmSetvalue (x : Real64)
  /-- PWM.SETRANGE, 0x31, R283. -/
  | pwmSetrange (range : U32)
  /-- PWM.SETDIVISOR, 0x32, R284. -/
  | pwmSetdivisor (divisor : U32)
  /-- PWM.ENABLE, 0x33, R285. -/
  | pwmEnable
  /-- PWM.DISABLE, 0x34, R286. -/
  | pwmDisable
  /-- PWM.GET, 0x35, R287. -/
  | pwmGet
  /-- TEMP.GET, 0x40, R320. -/
  | tempGet
  /-- TEMP.DIAG, 0x41, R321. -/
  | tempDiag
  /-- RANGE.MEASURE, 0x50, R347. -/
  | rangeMeasure
  /-- RANGE.GET, 0x51, R348. -/
  | rangeGet
  /-- RANGE.READY, 0x52, R349. -/
  | rangeReady
  /-- RANGE.SETSPEED, 0x53, R350. -/
  | rangeSetspeed (c : Real64)
  /-- FLOW.GETCOUNT, 0x60, R372. -/
  | flowGetcount
  /-- FLOW.GETLITRES, 0x61, R373. -/
  | flowGetlitres
  /-- FLOW.NOTIFYAFTER, 0x62, R374. -/
  | flowNotifyafter (litres : Real64)
  /-- FLOW.STATUS, 0x63, R375. -/
  | flowStatus
  /-- BTN.GET, 0x70, R394. -/
  | btnGet (index : Byte)
  /-- BTN.GETMASK, 0x71, R396. -/
  | btnGetmask
  /-- PRESS.GETBAR, 0x72, R395. -/
  | pressGetbar
  /-- PID.SETGAINS, 0x80, R412. -/
  | pidSetgains (p i d : Real64)
  /-- PID.SETLIMITS, 0x81, R413. -/
  | pidSetlimits (min max : Real64)
  /-- PID.UPDATE, 0x82, R414. -/
  | pidUpdate (error position : Real64)
  /-- PID.READ, 0x83, R415. -/
  | pidRead
  /-- REG.START, 0x90, R434. -/
  | regStart
  /-- REG.STOP, 0x91, R435. -/
  | regStop
  /-- REG.SETTARGET, 0x92, R438. -/
  | regSettarget (t : Real64)
  /-- REG.SETTIMESTEP, 0x93, R439. -/
  | regSettimestep (sec : Real64)
  /-- REG.SETPOWER, 0x94, R440. -/
  | regSetpower (on : Byte)
  /-- REG.READ, 0x95, R441. -/
  | regRead
  /-- REG.STATUS, 0x96, R442. -/
  | regStatus
  /-- NTF.POP, 0xA0, R464. -/
  | ntfPop
  /-- NTF.ENABLE, 0xA1, R465. -/
  | ntfEnable (mask : Byte)
  /-- NTF.STATUS, 0xA2, R466. -/
  | ntfStatus
  /-- ENV.PIN on the environment port, 0xF0, R210. -/
  | envPin (pin level : Byte)
  /-- ENV.TIME on the environment port, 0xF1, R470. -/
  | envTime (t : U64)
  deriving DecidableEq, Repr

end Sys2Proof
end

