-- ==== Sys2Proof/Decode.lean ====
section
/-! DEFINITION. The decoder of host and environment frames (30_encoding.md R140 to R149), total on any bytes and rejecting
by name, and the encoder written from the same table. -/

namespace Sys2Proof

open Sys2Proof.Machine

/-- Why a frame is no instruction. -/
inductive DecodeError where
  /-- The frame has no opcode byte. -/
  | empty
  /-- The opcode is not in R146 for this port: ILLEGAL on the host port (R147), ignored on the environment port (R144). -/
  | unlisted (opcode : Byte)
  /-- The frame's length is not the one R149 gives its opcode. -/
  | length (opcode : Byte)
  deriving DecidableEq, Repr

/-- The two ports (R140, R144). -/
inductive PortName where
  | host
  | environment
  deriving DecidableEq, Repr

/-- A `u32` from its bytes, most significant first (R142). -/
def be32 (b0 b1 b2 b3 : Byte) : U32 := b0 ++ b1 ++ b2 ++ b3

/-- A `u64`, or a `real`'s pattern, from its bytes, most significant first (R142). -/
def be64 (b0 b1 b2 b3 b4 b5 b6 b7 : Byte) : BitVec 64 := b0 ++ b1 ++ b2 ++ b3 ++ b4 ++ b5 ++ b6 ++ b7

/-- Format HC0 (R149): no operand. -/
def formHC0 (i : Instr) : Frame → Option Instr
  | [] => some i
  | _ => none

/-- Formats HC-P, HC-C and HC-B (R149): one byte. -/
def formByte (f : Byte → Instr) : Frame → Option Instr
  | [b] => some (f b)
  | _ => none

/-- Formats HC-PB and ENV-PIN (R149): two bytes. -/
def formTwoBytes (f : Byte → Byte → Instr) : Frame → Option Instr
  | [p, b] => some (f p b)
  | _ => none

/-- Format HC-PW (R149). -/
def formPW (f : Byte → U32 → Instr) : Frame → Option Instr
  | [p, a, b, c, d] => some (f p (be32 a b c d))
  | _ => none

/-- Format HC-PBW (R149). -/
def formPBW (f : Byte → Byte → U32 → Instr) : Frame → Option Instr
  | [p, l, a, b, c, d] => some (f p l (be32 a b c d))
  | _ => none

/-- Format HC-W (R149). -/
def formW (f : U32 → Instr) : Frame → Option Instr
  | [a, b, c, d] => some (f (be32 a b c d))
  | _ => none

/-- Formats HC-R and ENV-TIME (R149): one 8-byte operand. -/
def formR (f : BitVec 64 → Instr) : Frame → Option Instr
  | [a, b, c, d, e, g, h, i] => some (f (be64 a b c d e g h i))
  | _ => none

/-- Format HC-RR (R149). -/
def formRR (f : Real64 → Real64 → Instr) : Frame → Option Instr
  | [a, b, c, d, e, g, h, i, a', b', c', d', e', g', h', i'] =>
    some (f (be64 a b c d e g h i) (be64 a' b' c' d' e' g' h' i'))
  | _ => none

/-- Format HC-RRR (R149). -/
def formRRR (f : Real64 → Real64 → Real64 → Instr) : Frame → Option Instr
  | [a, b, c, d, e, g, h, i, a', b', c', d', e', g', h', i', a'', b'', c'', d'', e'', g'', h'', i''] =>
    some (f (be64 a b c d e g h i) (be64 a' b' c' d' e' g' h' i') (be64 a'' b'' c'' d'' e'' g'' h'' i''))
  | _ => none

/-- The operand parser of an opcode byte listed in R146, with its length in operand bytes (R149); `none` for an opcode
that is not listed. -/
def opcodeRow (opcode : Nat) : Option (Nat × (Frame → Option Instr)) :=
  match opcode with
  | 0x00 => some (2, formTwoBytes .gpioSetdir)
  | 0x01 => some (2, formTwoBytes .gpioWrite)
  | 0x02 => some (1, formByte .gpioRead)
  | 0x03 => some (6, formPBW .gpioPulse)
  | 0x04 => some (2, formTwoBytes .gpioSetedge)
  | 0x05 => some (5, formPW .gpioWaitedge)
  | 0x06 => some (1, formByte .gpioSubscribe)
  | 0x07 => some (1, formByte .gpioUnsubscribe)
  | 0x10 => some (0, formHC0 .clkNow)
  | 0x11 => some (0, formHC0 .swStart)
  | 0x12 => some (0, formHC0 .swStop)
  | 0x13 => some (0, formHC0 .swElapsed)
  | 0x20 => some (0, formHC0 .adcOpen)
  | 0x21 => some (1, formByte .adcGetvoltage)
  | 0x30 => some (8, formR .pwmSetvalue)
  | 0x31 => some (4, formW .pwmSetrange)
  | 0x32 => some (4, formW .pwmSetdivisor)
  | 0x33 => some (0, formHC0 .pwmEnable)
  | 0x34 => some (0, formHC0 .pwmDisable)
  | 0x35 => some (0, formHC0 .pwmGet)
  | 0x40 => some (0, formHC0 .tempGet)
  | 0x41 => some (0, formHC0 .tempDiag)
  | 0x50 => some (0, formHC0 .rangeMeasure)
  | 0x51 => some (0, formHC0 .rangeGet)
  | 0x52 => some (0, formHC0 .rangeReady)
  | 0x53 => some (8, formR .rangeSetspeed)
  | 0x60 => some (0, formHC0 .flowGetcount)
  | 0x61 => some (0, formHC0 .flowGetlitres)
  | 0x62 => some (8, formR .flowNotifyafter)
  | 0x63 => some (0, formHC0 .flowStatus)
  | 0x70 => some (1, formByte .btnGet)
  | 0x71 => some (0, formHC0 .btnGetmask)
  | 0x72 => some (0, formHC0 .pressGetbar)
  | 0x80 => some (24, formRRR .pidSetgains)
  | 0x81 => some (16, formRR .pidSetlimits)
  | 0x82 => some (16, formRR .pidUpdate)
  | 0x83 => some (0, formHC0 .pidRead)
  | 0x90 => some (0, formHC0 .regStart)
  | 0x91 => some (0, formHC0 .regStop)
  | 0x92 => some (8, formR .regSettarget)
  | 0x93 => some (8, formR .regSettimestep)
  | 0x94 => some (1, formByte .regSetpower)
  | 0x95 => some (0, formHC0 .regRead)
  | 0x96 => some (0, formHC0 .regStatus)
  | 0xA0 => some (0, formHC0 .ntfPop)
  | 0xA1 => some (1, formByte .ntfEnable)
  | 0xA2 => some (0, formHC0 .ntfStatus)
  | 0xF0 => some (2, formTwoBytes .envPin)
  | 0xF1 => some (8, formR .envTime)
  | _ => none

/-- The port an opcode belongs to: unit code 0xF is the environment port's alone (R144, R145). -/
def opcodePort (opcode : Byte) : PortName := if 0xF0 ≤ opcode.toNat then .environment else .host

/-- Decode a frame received on a port (R141, R144): a frame on the other port's opcode is unlisted here. -/
def decodeOn (port : PortName) (f : Frame) : Except DecodeError Instr :=
  match f with
  | [] => .error .empty
  | opcode :: operands =>
    if opcodePort opcode ≠ port then .error (.unlisted opcode)
    else match opcodeRow opcode.toNat with
      | none => .error (.unlisted opcode)
      | some (_, parse) =>
        match parse operands with
        | none => .error (.length opcode)
        | some i => .ok i

/-- The port a frame is addressed to by its opcode; an empty frame counts as the host's. -/
def framePort : Frame → PortName
  | [] => .host
  | opcode :: _ => opcodePort opcode

/-- Decode a frame on the port its opcode belongs to. -/
def decode (f : Frame) : Except DecodeError Instr := decodeOn (framePort f) f

/-! ### The encoder -/

/-- The frame of an instruction (R146, R149). -/
def encode : Instr → Frame
  | .gpioSetdir pin dir => [0x00, pin, dir]
  | .gpioWrite pin level => [0x01, pin, level]
  | .gpioRead pin => [0x02, pin]
  | .gpioPulse pin level width => [0x03, pin, level] ++ bytes32 width
  | .gpioSetedge pin mode => [0x04, pin, mode]
  | .gpioWaitedge pin timeout => [0x05, pin] ++ bytes32 timeout
  | .gpioSubscribe pin => [0x06, pin]
  | .gpioUnsubscribe pin => [0x07, pin]
  | .clkNow => [0x10]
  | .swStart => [0x11]
  | .swStop => [0x12]
  | .swElapsed => [0x13]
  | .adcOpen => [0x20]
  | .adcGetvoltage ch => [0x21, ch]
  | .pwmSetvalue x => [0x30] ++ bytes64 x
  | .pwmSetrange range => [0x31] ++ bytes32 range
  | .pwmSetdivisor divisor => [0x32] ++ bytes32 divisor
  | .pwmEnable => [0x33]
  | .pwmDisable => [0x34]
  | .pwmGet => [0x35]
  | .tempGet => [0x40]
  | .tempDiag => [0x41]
  | .rangeMeasure => [0x50]
  | .rangeGet => [0x51]
  | .rangeReady => [0x52]
  | .rangeSetspeed c => [0x53] ++ bytes64 c
  | .flowGetcount => [0x60]
  | .flowGetlitres => [0x61]
  | .flowNotifyafter litres => [0x62] ++ bytes64 litres
  | .flowStatus => [0x63]
  | .btnGet index => [0x70, index]
  | .btnGetmask => [0x71]
  | .pressGetbar => [0x72]
  | .pidSetgains p i d => [0x80] ++ bytes64 p ++ bytes64 i ++ bytes64 d
  | .pidSetlimits min max => [0x81] ++ bytes64 min ++ bytes64 max
  | .pidUpdate error position => [0x82] ++ bytes64 error ++ bytes64 position
  | .pidRead => [0x83]
  | .regStart => [0x90]
  | .regStop => [0x91]
  | .regSettarget t => [0x92] ++ bytes64 t
  | .regSettimestep sec => [0x93] ++ bytes64 sec
  | .regSetpower on => [0x94, on]
  | .regRead => [0x95]
  | .regStatus => [0x96]
  | .ntfPop => [0xA0]
  | .ntfEnable mask => [0xA1, mask]
  | .ntfStatus => [0xA2]
  | .envPin pin level => [0xF0, pin, level]
  | .envTime t => [0xF1] ++ bytes64 t

/-- The port an instruction belongs to (R144, R145). -/
def Instr.port (i : Instr) : PortName := framePort (encode i)

/-! ### Table words -/

/-- Byte `k` of the instruction whose bits are `w`: bit 0 is the least significant bit of the first byte. -/
def wordByte (w k : Nat) : Byte := BitVec.ofNat 8 (w / 2 ^ (8 * k))

/-- The whole frame of the instruction whose first `nbits` bits are `w` and whose other bits are 0: its opcode byte and
as many operand bytes as R149 gives that opcode (none for an opcode that is not listed). -/
def wordFrame (nbits w : Nat) : Frame :=
  let bits := w % 2 ^ nbits
  let operands := match opcodeRow (wordByte bits 0).toNat with
    | none => 0
    | some (n, _) => n
  (List.range (operands + 1)).map (wordByte bits)

/-- The instruction the decoder reads from a table word. -/
def decodeTableWord (nbits w : Nat) : Option Instr :=
  match decode (wordFrame nbits w) with
  | .ok i => some i
  | .error _ => none

end Sys2Proof
end

