-- ==== Sys2Proof/Machine/Flags.lean ====
section
/-! DEFINITION. The block's status flags (R34). It has no arithmetic condition codes, so no flag is computed as a side
effect of an instruction; each flag is a field or a function of the state. -/

namespace Sys2Proof.Machine

/-- The interrupt line `IRQ`: 1 exactly when the notification queue is non-empty (R463). -/
def State.irq (s : State) : Bool := !s.ntf.queue.isEmpty

/-- The edge-mode match function (R211); `level` is the level after the transition. -/
def EdgeMode.matches (m : EdgeMode) (level : Bool) : Bool :=
  match m with
  | .off => false
  | .rising => level
  | .falling => !level
  | .both => true

/-- `enabled`, `running`, `present` and the other flags of R34 that are not stored as a `bool`. -/
def State.regRunning (s : State) : Bool := decide (s.reg.state = .running)

/-- `presence = ABSENT` (R259). -/
def State.adcAbsent (s : State) : Bool := decide (s.adc.presence = .absent)

/-- `pwm_level(now)` (R288): low when disabled or at value 0, high at value = range, else a draw, since where a period
starts is not fixed (U5). -/
def State.pwmLevel (s : State) : Bool × State :=
  if !s.pwm.enabled || s.pwm.value = 0 then (false, s)
  else if s.pwm.value = s.pwm.range then (true, s)
  else s.drawLevel

/-- ADC Config bit 15 as it is read back: 1 when the conversion is complete (R252). -/
def conversionDone (config : BitVec 16) : Bool := config.getLsbD 15

end Sys2Proof.Machine
end

