-- ==== Sys2Proof/Machine/Operands.lean ====
section
/-! DEFINITION. The operand checks that several commands share (R147, R201, R601, R605): every operand is an immediate
(R148), so there are no addressing modes. -/

namespace Sys2Proof.Machine

/-- A level, direction or `bool` operand as the value it stands for (legal ones are 0 and 1, R142). -/
def bitOf (b : Byte) : Bool := decide (b = 1)

/-- A `bool`, level or direction operand outside its legal set {0, 1} (R142, R147). -/
def notBit (b : Byte) : Bool := 1 < b.toNat

/-- An edge mode operand (R224): 0 NONE, 1 RISING, 2 FALLING, 3 BOTH. -/
def edgeModeOf (b : Byte) : EdgeMode :=
  if b = 0 then .off else if b = 1 then .rising else if b = 2 then .falling else .both

/-- A pin operand that names no pin (R147, R201). -/
def State.noSuchPin (s : State) (pin : Byte) : Bool := s.cfg.npins ≤ pin.toNat

/-- The write-class check of R201: BADARG for a pin out of range, BUSY for a pin a unit owns, else none. -/
def State.pinCheck (s : State) (pin : Byte) : Option Status :=
  if s.noSuchPin pin then some .badarg
  else if (s.pin pin.toNat).owner ≠ .host then some .busy
  else none

end Sys2Proof.Machine
end

