-- ==== Sys2Proof/Machine/Notify.lean ====
section
/-! DEFINITION. The notification queue and its host commands (49_notify_env.md R460 to R466). -/

namespace Sys2Proof.Machine

/-- The code of a notification kind (R460). -/
def NtfKind.code : NtfKind → Byte
  | .flowStart => 1
  | .flowStop => 2
  | .flowTarget => 3
  | .button => 4
  | .edge => 5

/-- The enable bit of a notification kind (R460). -/
def NtfKind.bit : NtfKind → Nat
  | .flowStart => 0
  | .flowStop => 0
  | .flowTarget => 0
  | .button => 1
  | .edge => 2

/-- `emit(n)` on the notification unit (R461, R462): gated by the class's enable bit, dropped and counted when the queue is
full, appended otherwise. -/
def NtfUnit.emit (depth : Nat) (u : NtfUnit) (n : Ntf) : NtfUnit :=
  if !u.enable.getLsbD n.kind.bit then u
  else if u.queue.length = depth then { u with dropped := u.dropped + 1 }
  else { u with queue := u.queue ++ [n] }

/-- `emit(n)` (R12, R462). -/
def State.emit (s : State) (n : Ntf) : State := { s with ntf := s.ntf.emit s.cfg.ntfDepth n }

/-- NTF.POP (R464): removes and answers the oldest record, EMPTY when there is none. -/
def execNtfPop (s : State) : Result :=
  .next (match s.ntf.queue with
    | [] => s.reply .empty [.u8 0, .u32 0, .u32 0, .u32 0]
    | n :: rest =>
      State.reply { s with ntf := { s.ntf with queue := rest } } .ok [.u8 n.kind.code, .u32 n.a, .u32 n.b, .u32 n.c])

/-- NTF.ENABLE (R465): bits 3 to 7 are reserved. -/
def execNtfEnable (mask : Byte) (s : State) : Result :=
  .next (if 7 < mask.toNat then s.raise .badarg []
    else State.reply { s with ntf := { s.ntf with enable := mask } } .ok [])

/-- NTF.STATUS (R466). -/
def execNtfStatus (s : State) : Result :=
  .next (s.reply .ok [.u8 (BitVec.ofNat 8 s.ntf.queue.length), .u32 s.ntf.dropped, .u8 s.ntf.enable])

end Sys2Proof.Machine
end

