-- ==== Sys2Proof/Machine/Buttons.lean ====
section
/-! DEFINITION. The button unit's mask, its two sensing strategies and its host commands (46_buttons_pressure.md R390 to
R394, R396, R397). The poll of LADDER mode asks the ADC, so its timed action stands in Adc.lean. -/

namespace Sys2Proof.Machine

/-- One button of `apply(newMask)` (R393): a change is timed and notified. -/
def State.applyButton (s : State) (newMask : U32) (i : Nat) : State :=
  if newMask.getLsbD i = s.btn.mask.getLsbD i then s
  else
    { s with btn := { s.btn with lastChange := s.btn.lastChange.set i s.now } }.emit
      { kind := .button, a := BitVec.ofNat 32 i, b := if newMask.getLsbD i then 1 else 0
        c := ts32 s.now - ts32 (s.btn.lastChange.getD i 0) }

/-- `apply(newMask)` (R393): the buttons in ascending order, then the mask as a whole. -/
def State.applyMask (s : State) (newMask : U32) : State :=
  let s := (List.range s.cfg.nbtn).foldl (fun s i => s.applyButton newMask i) s
  { s with btn := { s.btn with mask := newMask } }

/-- The mask that the pins show (R391): active-low, so a low level is a pressed button. -/
def State.pinMask (s : State) : U32 :=
  BitVec.ofNat 32 ((List.range s.cfg.nbtn).foldl
    (fun m i => if (s.pin (s.cfg.pinBtn.getD i 0)).inLevel then m else m + 2 ^ i) 0)

/-- The gaps between neighbours of a list. -/
def gaps : List Rat → List Rat
  | a :: b :: rest => |a - b| :: gaps (b :: rest)
  | _ => []

/-- `tol` of R392: half the least gap between entries adjacent in sorted voltage order. -/
def ladderTol (table : List Real64) : Option Rat :=
  ((gaps ((table.map realRat).insertionSort (· ≤ ·))).min?).map (· / 2)

/-- The index and distance of the entry nearest `v`, the lowest index on a tie (R392), from index `i` on. -/
def nearest (v : Rat) : List Real64 → Nat → Option (Nat × Rat)
  | [], _ => none
  | x :: rest, i =>
    match nearest v rest (i + 1) with
    | none => some (i, |v - realRat x|)
    | some (j, d) => if d < |v - realRat x| then some (j, d) else some (i, |v - realRat x|)

/-- `ladder(v)` (R392): the nearest entry's index if it is strictly within the tolerance, else 0. An infinite voltage (R256
in a narrow `REAL_FMT`) is infinitely far from every entry, so within no tolerance: 0 (log entry 28). -/
def ladder (table : List Real64) (v : Real64) : U32 :=
  match ladderTol table, nearest (realRat v) table 0 with
  | some tol, some (j, d) => if realFinite v && d < tol then BitVec.ofNat 32 j else 0
  | _, _ => 0

/-- `ladder_done(v)` (R397): the button unit sees only the value. -/
def State.ladderDone (s : State) (v : Real64) : State :=
  let s := { s with btn := { s.btn with polling := false } }
  s.applyMask (ladder s.cfg.ladderTable v)

/-- BTN.GET (R394). -/
def execBtnGet (index : Byte) (s : State) : Result :=
  .next (if s.cfg.nbtn ≤ index.toNat then s.raise .badarg [.u8 0]
    else s.reply .ok [.bool (s.btn.mask.getLsbD index.toNat)])

/-- BTN.GETMASK (R396). -/
def execBtnGetmask (s : State) : Result := .next (s.reply .ok [.u32 s.btn.mask])

end Sys2Proof.Machine
end

