-- ==== Sys2Proof/Machine/Adc.lean ====
section
/-! DEFINITION. The ADC register-protocol master (41_adc.md R250 to R261), the pressure input that asks it
(46_buttons_pressure.md R395), and the button unit's poll, which asks it in LADDER mode (R390 to R392). -/

namespace Sys2Proof.Machine

/-- The register pointers the block issues (R107). -/
def ptrConversion : Byte := 0

/-- The Config register's pointer (R107). -/
def ptrConfig : Byte := 1

/-- `cfg(ch)`, the Config word that starts a conversion (R152, R251): OS, MUX = 4 + ch, PGA, MODE, DR, then the
comparator fields 0 and COMP_QUE = 0b11. -/
def adcConfigWord (c : Config) (ch : BitVec 2) : BitVec 16 :=
  1#1 ++ (1#1 ++ ch) ++ c.adcPga ++ 1#1 ++ c.adcDr ++ 0b00011#5

/-- `FS_VOLTS` as a function of `ADC_PGA` (R253): 6.144, 4.096, 2.048, 1.024, 0.512 and 0.256 volts, as REALs of
`REAL_FMT`. -/
def fsVolts (f : RealFmt) (pga : BitVec 3) : Real64 :=
  roundRat f (match pga.toNat with
    | 0 => 6144 / 1000
    | 1 => 4096 / 1000
    | 2 => 2048 / 1000
    | 3 => 1024 / 1000
    | 4 => 512 / 1000
    | _ => 256 / 1000)

/-- `volts(raw)` (R256): the Conversion register as two's complement, scaled exactly and rounded once; `real(raw)` is the
integer itself (log entry 29). A voltage beyond the finite values of `REAL_FMT` rounds to an infinity (log entry 28). -/
def volts (c : Config) (raw : BitVec 16) : Real64 :=
  roundRat c.realFmt (raw.toInt * realRat (fsVolts c.realFmt c.adcPga) / c.fsCounts)

/-- Deliver a finished conversion to the one who asked (R255). -/
def State.deliver (s : State) (req : AdcReq) (st : Status) (v : Real64) : State :=
  match req with
  | .host => s.complete st [.real v]
  | .press => s.complete st [.real (barOfVolts s.cfg.realFmt v)]
  | .btn => s.ladderDone v

/-- Start the first of the waiting requests, and the rest stay queued (R255, R258). A start whose first write is NACKed
finishes with IOERR and 0.0, and the next request starts in the same step. -/
def State.startNext (s : State) : List (BitVec 2 × AdcReq) → State
  | [] => { s with adc := { s.adc with queue := [] } }
  | (ch, req) :: rest =>
    let s := { s with adc := { s.adc with phase := .converting ch req s.now, queue := rest } }
    let (ack, s) := s.writeReg ptrConfig (adcConfigWord s.cfg ch)
    if ack then s.schedule .adcPoll (s.now + s.cfg.adcPollUs)
    else ({ s with adc := { s.adc with phase := .idle } }.deliver req .ioerr zero64).startNext rest

/-- `finish(status, v)` of the conversion asked for by `req` (R255). -/
def State.finish (s : State) (req : AdcReq) (st : Status) (v : Real64) : State :=
  let s := { s with adc := { s.adc with phase := .idle } }.deliver req st v
  s.startNext s.adc.queue

/-- Ask for a conversion: started now if none is in flight, else queued (R258). -/
def State.request (s : State) (ch : BitVec 2) (req : AdcReq) : State :=
  match s.adc.phase with
  | .idle => s.startNext ((ch, req) :: s.adc.queue)
  | .converting .. => { s with adc := { s.adc with queue := s.adc.queue ++ [(ch, req)] } }

/-- The timed action `(ADC, poll)` of a conversion that `req` asked for at `t0` (R255). -/
def State.poll (s : State) (req : AdcReq) (t0 : Nat) : State :=
  match s.readReg ptrConfig with
  | (none, s) => s.finish req .ioerr zero64
  | (some config, s) =>
    if conversionDone config then
      match s.readReg ptrConversion with
      | (none, s) => s.finish req .ioerr zero64
      | (some raw, s) => s.finish req .ok (volts s.cfg raw)
    else if s.cfg.adcTimeoutUs ≤ s.now - t0 then s.finish req .ioerr zero64
    else s.schedule .adcPoll (s.now + s.cfg.adcPollUs)

/-- `probe()` (R259): the Config pointer write and the two-byte read both answered. -/
def State.probe (s : State) : Bool × State :=
  let (ans, s) := s.readReg ptrConfig
  (ans.isSome, s)

/-- ADC.OPEN (R260). -/
def execAdcOpen (s : State) : Result :=
  .next (match s.adc.phase with
    | .converting .. => s.raise .busy []
    | .idle =>
      let (ok, s) := s.probe
      State.reply { s with adc := { s.adc with presence := if ok then .present else .absent } }
        (if ok then .ok else .absent) [])

/-- ADC.GETVOLTAGE (R261). -/
def execAdcGetvoltage (ch : Byte) (s : State) : Result :=
  .next (if 3 < ch.toNat then s.reply .badarg [.real zero64]
    else if s.adcAbsent then s.reply .absent [.real zero64]
    else (s.hold (.getVoltage ch)).request (ch.setWidth 2) .host)

/-- PRESS.GETBAR (R395). -/
def execPressGetbar (s : State) : Result :=
  .next (if s.adcAbsent then s.reply .absent [.real (barOfVolts s.cfg.realFmt zero64)]
    else (s.hold .getBar).request s.cfg.pressAdcCh .press)

/-- The button unit's conversion request in LADDER mode (R392, R397): none while one is in flight; an absent device
completes at once with 0.0 (R259). -/
def State.ladderPoll (s : State) : State :=
  if s.btn.polling then s
  else
    let s := { s with btn := { s.btn with polling := true } }
    if s.adcAbsent then s.ladderDone zero64 else s.request s.cfg.btnAdcCh .btn

/-- The timed action `(BTN, poll)` (R390, R391, R392). -/
def State.btnPoll (s : State) : State :=
  match s.cfg.btnMode with
  | .pins => (s.applyMask s.pinMask).schedule .btnPoll (s.now + s.cfg.btnPollUs)
  | .ladder => (s.schedule .btnPoll (s.now + s.cfg.btnPollUs)).ladderPoll

end Sys2Proof.Machine
end

