-- ==== Sys2Proof/Machine/Clock.lean ====
section
/-! DEFINITION. The time base and the host stopwatch (40_clock_gpio.md R230 to R233), and the environment's advance of time
(49_notify_env.md R470). -/

namespace Sys2Proof.Machine

/-- CLK.NOW (R230). -/
def execClkNow (s : State) : Result := .next (s.reply .ok [.u32 (timestamp s.cfg s.now)])

/-- SW.START (R231): also restarts a running stopwatch. -/
def execSwStart (s : State) : Result :=
  .next (State.reply { s with clk := { s.clk with swStart := s.now, swRunning := true } } .ok [])

/-- SW.STOP (R232): changes nothing when the stopwatch is stopped. -/
def execSwStop (s : State) : Result :=
  .next (if s.clk.swRunning then
      State.reply { s with clk := { s.clk with swStop := s.now, swRunning := false } } .ok []
    else s.reply .ok [])

/-- The elapsed time `e mod 2^32` of R233. -/
def State.elapsed (s : State) : U32 :=
  if s.clk.swRunning then ts32 s.now - ts32 s.clk.swStart else ts32 s.clk.swStop - ts32 s.clk.swStart

/-- SW.ELAPSED (R233). -/
def execSwElapsed (s : State) : Result := .next (s.reply .ok [.u32 s.elapsed])

/-- Whether time may advance to `t` (R470): `t` is later than now, no pending action is enabled, and `t` passes no
pending due time. -/
def State.admits (s : State) (t : Nat) : Bool :=
  s.now < t && Action.all.all fun a =>
    match s.timers.get a with
    | none => true
    | some due => s.now < due && t ≤ due

/-- ENV.TIME (R470): an admissible frame advances `now` and nothing else; an inadmissible one changes nothing. -/
def execEnvTime (t : U64) (s : State) : Result := .next (if s.admits t.toNat then { s with now := t.toNat } else s)

end Sys2Proof.Machine
end

