-- ==== Sys2Proof/Machine/FlowCounter.lean ====
section
/-! DEFINITION. The flow counter (45_flow_counter.md R370 to R376). -/

namespace Sys2Proof.Machine

/-- Count the edge and keep its time (R370). -/
def State.flowCount (s : State) : State :=
  { s with flow := { s.flow with count := s.flow.count + 1, lastEdge := s.now } }

/-- Start, on the first edge while stopped (R370). -/
def State.flowStart (s : State) (ts : U32) : State :=
  if s.flow.flowing then s
  else { s with flow := { s.flow with flowing := true } }.emit { kind := .flowStart, a := s.flow.count, b := 0, c := ts }

/-- Target, once, on the edge that makes the count equal the armed target (R370). -/
def State.flowTarget (s : State) (ts : U32) : State :=
  if s.flow.armed && s.flow.count = s.flow.target then
    { s with flow := { s.flow with armed := false } }.emit { kind := .flowTarget, a := s.flow.count, b := 0, c := ts }
  else s

/-- The owner handler of `PIN_FLOW` (R370): every edge counts, of both directions. -/
def State.flowEdge (s : State) (ts : U32) : State :=
  let s := s.flowCount.flowStart ts
  (s.schedule .flowIdle (s.now + s.cfg.flowIdleUs)).flowTarget ts

/-- The timed action `(FLOW, idle)` (R371). -/
def State.flowStop (s : State) : State :=
  { s with flow := { s.flow with flowing := false } }.emit
    { kind := .flowStop, a := s.flow.count, b := 0, c := timestamp s.cfg s.now }

/-- FLOW.GETCOUNT (R372). -/
def execFlowGetcount (s : State) : Result := .next (s.reply .ok [.u32 s.flow.count])

/-- `real(count) / COUNTS_PER_LITRE`, exact, rounded once (R373); `real(count)` is the count itself (log entry 29), and a
quotient beyond the finite values of `REAL_FMT` rounds to an infinity (log entry 28). -/
def State.litres (s : State) : Real64 :=
  roundRat s.cfg.realFmt (s.flow.count.toNat / realRat s.cfg.countsPerLitre)

/-- FLOW.GETLITRES (R373). -/
def execFlowGetlitres (s : State) : Result := .next (s.reply .ok [.real s.litres])

/-- `n = round_ha(litres × COUNTS_PER_LITRE)` (R374). -/
def edgesFor (c : Config) (litres : Real64) : Int := roundHa (realRat litres * realRat c.countsPerLitre)

/-- FLOW.NOTIFYAFTER (R374): the operand itself is converted to a count of edges, by one exact product (R142, R148). -/
def execFlowNotifyafter (litres : Real64) (s : State) : Result :=
  .next (if !realFinite litres || realLt litres zero64 then s.raise .badarg []
    else if 2 ^ 32 - 1 < edgesFor s.cfg litres then s.raise .badarg []
    else State.reply
      { s with flow := { s.flow with
          target := s.flow.count + BitVec.ofInt 32 (max (edgesFor s.cfg litres) 1)
          armed := true } } .ok [])

/-- FLOW.STATUS (R375). -/
def execFlowStatus (s : State) : Result :=
  .next (s.reply .ok [.bool s.flow.flowing, .bool s.flow.armed, .u32 s.flow.target])

end Sys2Proof.Machine
end

