-- ==== Sys2Proof/Machine/RangeFinder.lean ====
section
/-! DEFINITION. The ultrasonic range finder (44_range_finder.md R340 to R351), in its POLL and BACKGROUND modes. -/

namespace Sys2Proof.Machine

/-- `start_time()` (R346): no trigger before `lastTrigger + MIN_TRIGGER_INTERVAL_US`. -/
def State.startTime (s : State) : Nat :=
  match s.range.lastTrigger with
  | none => s.now
  | some t => max s.now (t + s.cfg.minTriggerIntervalUs)

/-- `distance(delta)` in metres (R342): exact, rounded once, at the speed in force; `real(delta)` is the integer itself, not
rounded first to a `REAL_FMT` of fewer than 32 significand bits (log entry 29). -/
def distance (f : RealFmt) (speed : Real64) (delta : U32) : Real64 :=
  (((ofInt delta.toNat).mul (realNum speed)).mul (.fin (1 / 2000000))).round f

/-- `measure_start(req)` (R341). -/
def State.measureStart (s : State) (req : RangeReq) : State :=
  let s := { s with range := { s.range with req := req, phase := .trig, lastTrigger := some s.now } }
  (s.pinOut s.cfg.pinTrig true).schedule .rangeTrigEnd (s.now + s.cfg.trigUs)

/-- The timed action `(RANGE, trigEnd)` (R341). -/
def State.trigEnd (s : State) : State :=
  let s := s.pinOut s.cfg.pinTrig false
  { s with range := { s.range with tTrigEnd := s.now, phase := .waitRise } }.schedule .rangeEchoTimeout
    (s.now + s.cfg.echoTimeoutUs)

/-- `publish(r)` (R347): the poll-mode result, unsmoothed. -/
def State.publish (s : State) (r : Real64) : State :=
  { s with range := { s.range with filtered := r, count := s.range.count + 1, valid := true } }

/-- What a host measurement's end does (R347, R349): it ends the RANGE.MEASURE, or the RANGE.READY that waits in POLL mode,
which measures again until an echo comes or its bound has passed. (No other command waits on a host measurement.) -/
def State.hostResult (s : State) (r : Real64) (timedOut : Bool) : State :=
  match s.port with
  | .held { op := .measure, .. } =>
    if timedOut then s.complete .timeout [.real zero64] else (s.publish r).complete .ok [.real r]
  | .held { op := .ready, tAcc := t, .. } =>
    if !timedOut then (s.publish r).complete .ok []
    else if s.cfg.readyTimeoutUs ≤ s.now - t then s.complete .timeout []
    else s.schedule .rangeHostTrig s.startTime
  | _ => s

/-- `complete_ready_if_waiting()` (R345, R349). -/
def State.completeReady (s : State) : State :=
  match s.port with
  | .held { op := .ready, .. } => s.complete .ok []
  | _ => s

/-- `next_sample()` (R344). -/
def State.nextSample (s : State) : State := s.schedule .rangeSample s.startTime

/-- Whether the sampler's gate rejects `r`: `|r - filtered| > GATE_M`, exactly (R345). -/
def State.outsideGate (s : State) (r : Real64) : Bool :=
  (realNum s.cfg.gateM).lt (((realNum r).sub (realNum s.range.filtered)).abs)

/-- `filtered + SMOOTH_K × (r - filtered)`, exact (R345). -/
def State.smoothed (s : State) (r : Real64) : Num :=
  (realNum s.range.filtered).add ((realNum s.cfg.smoothK).mul ((realNum r).sub (realNum s.range.filtered)))

/-- `sampler_result(r)` (R345). -/
def State.samplerResult (s : State) (r : Real64) : State :=
  if !s.range.valid then (s.publish r).completeReady.nextSample
  else if s.range.attempt = .first && s.outsideGate r then
    { s with range := { s.range with attempt := .retry } }.schedule .rangeRetry s.startTime
  else
    let (filtered, s) := s.storedReal (s.smoothed r)
    { s with range := { s.range with filtered := filtered, count := s.range.count + 1 } }.nextSample

/-- `measure_done(r, timedOut)` (R341). -/
def State.measureDone (s : State) (r : Real64) (timedOut : Bool) : State :=
  let s := { s with range := { s.range with phase := .idle } }
  match s.range.req with
  | .host => s.hostResult r timedOut
  | .sampler => s.samplerResult r

/-- The timed action `(RANGE, echoTimeout)` (R341, R343): no echo, the value 0.0. -/
def State.echoTimeout (s : State) : State := s.measureDone zero64 true

/-- The owner handler of `PIN_ECHO` (R351); an edge no measurement waits for is ignored. -/
def State.echoEdge (s : State) (level : Bool) (ts : U32) : State :=
  if s.range.phase = .waitRise && level then
    { s with range := { s.range with rise := ts, phase := .waitFall } }.schedule .rangeEchoTimeout
      (s.now + s.cfg.echoTimeoutUs)
  else if s.range.phase = .waitFall && !level then
    (s.cancel .rangeEchoTimeout).measureDone (distance s.cfg.realFmt s.range.speed (duration s.cfg s.range.rise ts)) false
  else s

/-- The timed action `(RANGE, sample)` (R344). -/
def State.sampleStart (s : State) : State :=
  { s with range := { s.range with attempt := .first } }.measureStart .sampler

/-- RANGE.MEASURE (R347): BUSY in BACKGROUND mode, else it holds the port until the measurement ends. -/
def execRangeMeasure (s : State) : Result :=
  .next (match s.cfg.rangeMode with
    | .background => s.raise .busy [.real zero64]
    | .poll => (s.hold .measure).schedule .rangeHostTrig s.startTime)

/-- RANGE.GET (R348). -/
def execRangeGet (s : State) : Result :=
  .next (s.reply .ok [.real s.range.filtered, .bool s.range.valid, .u32 s.range.count])

/-- RANGE.READY (R349): at once if a sample exists; else it waits for the sampler up to its deadline, or in POLL mode
measures. -/
def execRangeReady (s : State) : Result :=
  .next (if s.range.valid then s.reply .ok []
    else match s.cfg.rangeMode with
      | .background => s.holdUntil .ready (s.now + s.cfg.readyTimeoutUs)
      | .poll => (s.hold .ready).schedule .rangeHostTrig s.startTime)

/-- RANGE.SETSPEED (R350): the operand is checked as it is given and stored rounded to `REAL_FMT` (R13), where a positive one
below half the least value of a narrow `REAL_FMT` is 0.0. -/
def execRangeSetspeed (c : Real64) (s : State) : Result :=
  .next (if !realFinite c || realLe c zero64 then s.raise .badarg []
    else State.reply { s with range := { s.range with speed := s.toReal c } } .ok [])

end Sys2Proof.Machine
end

