-- ==== Sys2Proof/Machine/TempDecoder.lean ====
section
/-! DEFINITION. The single-wire temperature decoder (43_temp_decoder.md R310 to R321). -/

namespace Sys2Proof.Machine

/-- What a high pulse encodes (R154). -/
inductive Symbol where
  | bit1
  | bit0
  | sync
  deriving DecidableEq, Repr

/-- `classify(d)` (R154, R311), `tBit` being `T_BIT_US`. -/
def classify (tBit : Nat) (d : U32) : Symbol :=
  if 2 * d.toNat < tBit then .bit1 else if d.toNat < tBit then .bit0 else .sync

/-- `popcount(b)` (R11). -/
def popcount (b : Byte) : Nat := (List.range 8).countP fun i => b.getLsbD i

/-- `PARITY[b]` (R315). -/
def parity (b : Byte) : Nat := popcount b % 2

/-- The two 9-bit packets of a frame word, `pk0 ++ pk1`: `w[18:10]` and `w[8:0]` of a frame of 20 bits (R153, R314). The
packets of a frame of another length are free, since the spec lays out no other (log entry 26). -/
def packets (c : Config) (w : U32) : BitVec 18 :=
  if c.tempFrameBits = 20 then w.extractLsb' 10 9 ++ w.extractLsb' 0 9 else Config.freePackets c.tempFrameBits w

/-- `pk0`, the first packet. -/
def packet0 (p : BitVec 18) : BitVec 9 := p.extractLsb' 9 9

/-- `pk1`, the second packet. -/
def packet1 (p : BitVec 18) : BitVec 9 := p.extractLsb' 0 9

/-- A packet's data `pk[8:1]` (R153, R314). -/
def packetData (pk : BitVec 9) : Byte := pk.extractLsb' 1 8

/-- One packet's parity bit `pk[0]` makes it even (R315). -/
def packetEven (pk : BitVec 9) : Bool := (pk.getLsbD 0).toNat = parity (packetData pk)

/-- The parity check of R315: both packets are even. -/
def parityOk (p : BitVec 18) : Bool := packetEven (packet0 p) && packetEven (packet1 p)

/-- The prefix check of R316: `d0[7:3] = 0`. -/
def prefixOk (p : BitVec 18) : Bool := (packetData (packet0 p)).extractLsb' 3 5 = 0

/-- `raw = d0[2:0] ++ d1[7:0]` (R317). -/
def rawTemp (p : BitVec 18) : BitVec 11 := (packetData (packet0 p)).extractLsb' 0 3 ++ packetData (packet1 p)

/-- `T` of R317, exact and rounded once: `real(raw)` is the integer itself, not rounded first to a `REAL_FMT` of fewer than
11 significand bits (log entry 29). -/
def scaleTemp (c : Config) (raw : BitVec 11) : Real64 :=
  roundRat c.realFmt (realRat c.minTemp + raw.toNat * (realRat c.maxTemp - realRat c.minTemp) / 2047)

/-- A rejected frame (R319): only `valid` is cleared. -/
def Temp.reject (t : Temp) : Temp := { t with sample := { t.sample with valid := false } }

/-- `decode_frame(w, ts)` (R314 to R319): the first check that fails rejects the frame and counts its error. -/
def Temp.decodeFrame (c : Config) (t : Temp) (w ts : U32) : Temp :=
  let t := { t with frames := t.frames + 1 }
  let p := packets c w
  let value := scaleTemp c (rawTemp p)
  if !parityOk p then { t with parityErr := t.parityErr + 1 }.reject
  else if !prefixOk p then { t with prefixErr := t.prefixErr + 1 }.reject
  else if !(realLe c.minTemp value && realLe value c.maxTemp) then { t with rangeErr := t.rangeErr + 1 }.reject
  else { t with sample := { value := value, valid := true, ts := ts } }

/-- The rising-edge handler (R312). -/
def Temp.rise (t : Temp) (ts : U32) : Temp := { t with lastRise := some ts }

/-- The symbol of the pulse that a fall at `ts` ends; without a rise to measure from it is SYNC (R313). -/
def Temp.symbolAt (c : Config) (t : Temp) (ts : U32) : Symbol :=
  match t.lastRise with
  | none => .sync
  | some r => classify c.tBitUs (duration c r ts)

/-- A SYNC pulse restarts the frame; it is an error only when bits were pending (R313). -/
def Temp.sync (t : Temp) : Temp :=
  { t with syncErr := if 0 < t.bitCount then t.syncErr + 1 else t.syncErr, bitCount := 0, word := 0 }

/-- Shift one bit in, MSB first, and decode the frame at its last bit (R313). -/
def Temp.shiftIn (c : Config) (t : Temp) (bit : Bool) (ts : U32) : Temp :=
  let w := BitVec.ofNat 32 ((t.word.toNat * 2 + bit.toNat) % 2 ^ c.tempFrameBits)
  let t := { t with word := w, bitCount := t.bitCount + 1 }
  if t.bitCount = c.tempFrameBits then { t.decodeFrame c w ts with bitCount := 0, word := 0 } else t

/-- The falling-edge handler (R313). -/
def Temp.fall (c : Config) (t : Temp) (ts : U32) : Temp :=
  let symbol := t.symbolAt c ts
  let t := { t with lastRise := none }
  match symbol with
  | .sync => t.sync
  | .bit1 => t.shiftIn c true ts
  | .bit0 => t.shiftIn c false ts

/-- The owner handler of `PIN_TEMP` (R214, R312, R313). -/
def State.tempEdge (s : State) (level : Bool) (ts : U32) : State :=
  { s with temp := if level then s.temp.rise ts else s.temp.fall s.cfg ts }

/-- TEMP.GET (R320): an invalid sample is data, not an error. -/
def execTempGet (s : State) : Result :=
  .next (s.reply .ok [.real s.temp.sample.value, .bool s.temp.sample.valid, .u32 s.temp.sample.ts])

/-- TEMP.DIAG (R321). -/
def execTempDiag (s : State) : Result :=
  .next (s.reply .ok
    [.u32 s.temp.frames, .u32 s.temp.parityErr, .u32 s.temp.prefixErr, .u32 s.temp.rangeErr, .u32 s.temp.syncErr])

end Sys2Proof.Machine
end

