-- ==== Sys2Proof/Machine/EdgeDetector.lean ====
section
/-! DEFINITION. The edge detector (40_clock_gpio.md R210 to R215): ENV.PIN and the dispatch of EdgeEvents. -/

namespace Sys2Proof.Machine

/-- An EdgeEvent (R45): it exists only within the step that detects and dispatches it. -/
structure EdgeEvent where
  pin : Byte
  level : Bool
  ts : U32
  deriving DecidableEq, Repr

/-- Item 1 of R214: the handler of the pin's owner. BTN, PWM and HOST pins have none. -/
def State.ownerHandler (s : State) (ev : EdgeEvent) : State :=
  match (s.pin ev.pin.toNat).owner with
  | .temp => s.tempEdge ev.level ev.ts
  | .range => s.echoEdge ev.level ev.ts
  | .flow => s.flowEdge ev.ts
  | .btn => s
  | .pwm => s
  | .host => s

/-- Item 2 of R214: a GPIO.WAITEDGE on the pin completes (R225). -/
def State.waitEdgeDone (s : State) (ev : EdgeEvent) : State :=
  match s.port with
  | .held { op := .waitEdge pin _, .. } => if pin = ev.pin then s.complete .ok [.bool ev.level, .u32 ev.ts] else s
  | _ => s

/-- Item 3 of R214: a subscribed pin's event is offered to the notification queue (R157, R226). -/
def State.notifyEdge (s : State) (ev : EdgeEvent) : State :=
  if (s.pin ev.pin.toNat).hostSub then
    s.emit { kind := .edge, a := ev.pin.setWidth 32, b := if ev.level then 1 else 0, c := ev.ts }
  else s

/-- `dispatch(ev)` (R214): the owner, then a waiting command, then the subscription. -/
def State.dispatch (s : State) (ev : EdgeEvent) : State := ((s.ownerHandler ev).waitEdgeDone ev).notifyEdge ev

/-- ENV.PIN (R210): the edge detector's step. A pin out of range, a level above 1, an OUT pin (R213) and a level the pin
already has are ignored. -/
def execEnvPin (pin level : Byte) (s : State) : Result :=
  .next (
    let p := s.pin pin.toNat
    let l := bitOf level
    if s.noSuchPin pin || notBit level then s
    else if p.dir = .output then s
    else if l = p.inLevel then s
    else
      let s := s.setPin pin.toNat { p with inLevel := l }
      if p.edgeMode.matches l then s.dispatch { pin := pin, level := l, ts := timestamp s.cfg s.now } else s)

end Sys2Proof.Machine
end

