-- ==== Sys2Proof/Machine/Gpio.lean ====
section
/-! DEFINITION. The GPIO host commands (40_clock_gpio.md R220 to R227). -/

namespace Sys2Proof.Machine

/-- GPIO.SETDIR (R220): switching to IN draws the level the outside presents, without an EdgeEvent. -/
def execGpioSetdir (pin dir : Byte) (s : State) : Result :=
  .next (if notBit dir then s.raise .badarg []
    else match s.pinCheck pin with
      | some st => s.raise st []
      | none =>
        if bitOf dir then (s.setPin pin.toNat { s.pin pin.toNat with dir := .output }).reply .ok []
        else
          let (l, s) := s.drawLevel
          (s.setPin pin.toNat { s.pin pin.toNat with dir := .input, inLevel := l }).reply .ok [])

/-- GPIO.WRITE (R221): the output latch, which drives the pin only while it is OUT. -/
def execGpioWrite (pin level : Byte) (s : State) : Result :=
  .next (if notBit level then s.raise .badarg []
    else match s.pinCheck pin with
      | some st => s.raise st []
      | none => (s.pinOut pin.toNat (bitOf level)).reply .ok [])

/-- What GPIO.READ sees on an existing pin (R222, R288). -/
def State.readPin (s : State) (p : Nat) : Bool × State :=
  if p = s.cfg.pinPwm then s.pwmLevel
  else if (s.pin p).dir = .input then ((s.pin p).inLevel, s)
  else ((s.pin p).outLevel, s)

/-- GPIO.READ (R222): allowed on owned pins. -/
def execGpioRead (pin : Byte) (s : State) : Result :=
  .next (if s.noSuchPin pin then s.raise .badarg [.u8 0]
    else
      let (l, s) := s.readPin pin.toNat
      s.reply .ok [.bool l])

/-- GPIO.PULSE (R223): drives the level and holds the port; its deadline ends the pulse (`fire`). -/
def execGpioPulse (pin level : Byte) (width : U32) (s : State) : Result :=
  .next (if notBit level || width = 0 || s.cfg.pulseMaxUs < width.toNat then s.raise .badarg []
    else match s.pinCheck pin with
      | some st => s.raise st []
      | none =>
        if (s.pin pin.toNat).dir ≠ .output then s.raise .badarg []
        else (s.pinOut pin.toNat (bitOf level)).holdUntil (.pulse pin level width) (s.now + width.toNat))

/-- GPIO.SETEDGE (R224). -/
def execGpioSetedge (pin mode : Byte) (s : State) : Result :=
  .next (if 3 < mode.toNat then s.raise .badarg []
    else match s.pinCheck pin with
      | some st => s.raise st []
      | none => (s.setPin pin.toNat { s.pin pin.toNat with edgeMode := edgeModeOf mode }).reply .ok [])

/-- GPIO.WAITEDGE (R225): allowed on owned pins; the dispatch of a matching edge or the deadline ends it. -/
def execGpioWaitedge (pin : Byte) (timeout : U32) (s : State) : Result :=
  .next (if s.noSuchPin pin then s.raise .badarg [.u8 0, .u32 0]
    else if (s.pin pin.toNat).dir ≠ .input || (s.pin pin.toNat).edgeMode = .off then
      s.raise .badarg [.u8 0, .u32 0]
    else s.holdUntil (.waitEdge pin timeout) (s.now + timeout.toNat))

/-- GPIO.SUBSCRIBE (R226). -/
def execGpioSubscribe (pin : Byte) (s : State) : Result :=
  .next (if s.noSuchPin pin then s.raise .badarg []
    else (s.setPin pin.toNat { s.pin pin.toNat with hostSub := true }).reply .ok [])

/-- GPIO.UNSUBSCRIBE (R227): records already queued stay queued. -/
def execGpioUnsubscribe (pin : Byte) (s : State) : Result :=
  .next (if s.noSuchPin pin then s.raise .badarg []
    else (s.setPin pin.toNat { s.pin pin.toNat with hostSub := false }).reply .ok [])

end Sys2Proof.Machine
end

