-- ==== Sys2Proof/Machine/Pid.lean ====
section
/-! DEFINITION. The PID controller (47_pid.md R410 to R416), its formulas rounded to the format `f`, `REAL_FMT`. -/

namespace Sys2Proof.Machine

/-- The integrator after an update: the rounded sum, then clamped (R411). -/
def Pid.integrate (f : RealFmt) (p : Pid) (error : Real64) : Real64 :=
  clamp (((realNum p.integrator).add (realNum error)).round f) p.iMin p.iMax

/-- `pTerm` (R411). -/
def Pid.pTerm (f : RealFmt) (p : Pid) (error : Real64) : Real64 := ((realNum p.pGain).mul (realNum error)).round f

/-- `iTerm`, of the new integrator (R411). -/
def Pid.iTerm (f : RealFmt) (p : Pid) (error : Real64) : Real64 :=
  ((realNum p.iGain).mul (realNum (p.integrate f error))).round f

/-- `dTerm`: the exact difference, one rounding of the product (R411). -/
def Pid.dTerm (f : RealFmt) (p : Pid) (position : Real64) : Real64 :=
  ((realNum p.dGain).mul ((realNum p.lastPosition).sub (realNum position))).round f

/-- The drive before its one rounding: the exact sum of the three rounded terms (R411). -/
def Pid.drive (f : RealFmt) (p : Pid) (error position : Real64) : Num :=
  ((realNum (p.pTerm f error)).add (realNum (p.iTerm f error))).add (realNum (p.dTerm f position))

/-- The PidState after `pid_update(error, position)`: only `integrator` and `lastPosition` are written (R411). -/
def Pid.after (f : RealFmt) (p : Pid) (error position : Real64) : Pid :=
  { p with integrator := p.integrate f error, lastPosition := position }

/-- PID.SETGAINS (R412), what it stores rounded to `REAL_FMT` (R13). -/
def execPidSetgains (p i d : Real64) (s : State) : Result :=
  .next (if !(realFinite p && realFinite i && realFinite d) then s.raise .badarg []
    else State.reply
      { s with pid := { s.pid with pGain := s.toReal p, iGain := s.toReal i, dGain := s.toReal d } } .ok [])

/-- PID.SETLIMITS (R413), what it stores rounded to `REAL_FMT` (R13): inverted limits are accepted, and the
integrator is not clamped here. -/
def execPidSetlimits (min max : Real64) (s : State) : Result :=
  .next (if !(realFinite min && realFinite max) then s.raise .badarg []
    else State.reply { s with pid := { s.pid with iMin := s.toReal min, iMax := s.toReal max } } .ok [])

/-- PID.UPDATE (R414): its formulas take the operands as they are given (R142) and its fields store rounded values (R13); the
drive is returned as it is, unclamped (R416). -/
def execPidUpdate (error position : Real64) (s : State) : Result :=
  .next (if !(realFinite error && realFinite position) then s.raise .badarg [.real zero64]
    else if s.regRunning then s.raise .busy [.real zero64]
    else
      let pid := s.pid.after s.cfg.realFmt error (s.toReal position)
      let (drive, s) := ({ s with pid := pid } : State).freshReal (s.pid.drive s.cfg.realFmt error position)
      s.reply .ok [.real drive])

/-- PID.READ (R415). -/
def execPidRead (s : State) : Result :=
  .next (s.reply .ok [.real s.pid.pGain, .real s.pid.iGain, .real s.pid.dGain, .real s.pid.iMin, .real s.pid.iMax,
    .real s.pid.integrator, .real s.pid.lastPosition])

end Sys2Proof.Machine
end

