-- ==== Sys2Proof/Machine/Pwm.lean ====
section
/-! DEFINITION. The PWM actuator (42_pwm.md R280 to R289). -/

namespace Sys2Proof.Machine

/-- `trunc(frac × range)`: the exact product toward zero (R281, R283). -/
def onTicks (frac : Real64) (range : U32) : U32 := BitVec.ofInt 32 (trunc (realRat frac * range.toNat))

/-- `pwmset(x)` (R281): the internal primitive, which no BUSY check guards (R289). The clamp is a formula, so `xc` is its value
rounded to `REAL_FMT` (R13, log entry 27). -/
def State.pwmSet (s : State) (x : Real64) : State :=
  let xc := toFormat s.cfg.realFmt (clamp x zero64 one64)
  { s with pwm := { s.pwm with frac := xc, value := onTicks xc s.pwm.range } }

/-- The period of the output in master-clock cycles (R288). -/
def State.pwmPeriod (s : State) : Nat := s.pwm.divisor.toNat * s.pwm.range.toNat

/-- The output frequency in Hz, `PWM_CLOCK_HZ / (divisor × range)` (R156, R280). No command reads it. -/
def State.pwmFrequency (s : State) : Rat := mkRat s.cfg.pwmClockHz s.pwmPeriod

/-- The duty cycle, `value / range` (R280). No command reads it. -/
def State.pwmDuty (s : State) : Rat := mkRat s.pwm.value.toNat s.pwm.range.toNat

/-- Whether `PIN_PWM` is high in master-clock cycle `k`, counted from the start of a period (R288): while enabled, in the
first `value × divisor` cycles of each period. -/
def State.pwmHigh (s : State) (k : Nat) : Bool :=
  s.pwm.enabled && k % s.pwmPeriod < s.pwm.value.toNat * s.pwm.divisor.toNat

/-- PWM.SETVALUE (R282). -/
def execPwmSetvalue (x : Real64) (s : State) : Result :=
  .next (if !realFinite x then s.raise .badarg []
    else if s.regRunning then s.raise .busy []
    else (s.pwmSet x).reply .ok [])

/-- PWM.SETRANGE (R283): disable, reconfigure, re-enable in one atomic step, so `enabled` ends as it was. -/
def execPwmSetrange (range : U32) (s : State) : Result :=
  .next (if range = 0 then s.raise .badarg []
    else State.reply
      { s with pwm := { s.pwm with range := range, value := onTicks s.pwm.frac range, enabled := s.pwm.enabled } } .ok [])

/-- PWM.SETDIVISOR (R284): as PWM.SETRANGE, `value` and `range` kept. -/
def execPwmSetdivisor (divisor : U32) (s : State) : Result :=
  .next (if divisor = 0 || s.cfg.pwmDivMax < divisor.toNat then s.raise .badarg []
    else State.reply { s with pwm := { s.pwm with divisor := divisor, enabled := s.pwm.enabled } } .ok [])

/-- PWM.ENABLE (R285). -/
def execPwmEnable (s : State) : Result := .next (State.reply { s with pwm := { s.pwm with enabled := true } } .ok [])

/-- PWM.DISABLE (R286). -/
def execPwmDisable (s : State) : Result := .next (State.reply { s with pwm := { s.pwm with enabled := false } } .ok [])

/-- PWM.GET (R287). -/
def execPwmGet (s : State) : Result :=
  .next (s.reply .ok [.u32 s.pwm.divisor, .u32 s.pwm.range, .u32 s.pwm.value, .bool s.pwm.enabled])

end Sys2Proof.Machine
end

