-- ==== Sys2Proof/Machine/Regulator.lean ====
section
/-! DEFINITION. The regulator: the closed loop over the decoder, the PID and the PWM (48_regulator.md R430 to R442). -/

namespace Sys2Proof.Machine

/-- `stop_procedure()` (R436). -/
def State.stopProcedure (s : State) : State :=
  let s := s.cancel .regTick
  let s := { s with reg := { s.reg with state := .stopped } }.pwmSet zero64
  { s with reg := { s.reg with latestDrive := zero64 } }

/-- `abnormal_exit()` (R437), `temp` being the sample the tick read. -/
def State.abnormalExit (s : State) (temp : Real64) : State :=
  let s := s.stopProcedure
  { s with reg := { s.reg with fault := true, latestTemp := temp } }

/-- An invalid reading (R432). -/
def State.readingInvalid (s : State) : Bool :=
  !s.temp.sample.valid || realLe s.temp.sample.value s.cfg.regSentinel

/-- The drive after the power gate and the clamp (R431 steps 3 and 4). -/
def State.gated (s : State) (drive : Real64) : Real64 := clamp (if s.reg.power then drive else zero64) zero64 one64

/-- Steps 3 to 6 of a tick (R431): gate, clamp, write the PWM, publish, schedule the next tick. -/
def State.tickWrite (s : State) (temp drive : Real64) : State :=
  let d := s.gated drive
  let s := s.pwmSet d
  let due := s.reg.nextDue + s.reg.periodUs
  { s with reg := { s.reg with latestTemp := temp, latestDrive := d, nextDue := due } }.schedule .regTick due

/-- `target - s.value`, rounded once (R431 step 2). -/
def State.tickError (s : State) : Real64 :=
  ((realNum s.reg.target).sub (realNum s.temp.sample.value)).round s.cfg.realFmt

/-- The timed action `(REG, tick)` (R431). -/
def State.regTick (s : State) : State :=
  let temp := s.temp.sample.value
  if s.readingInvalid then s.tickWrite temp zero64
  else
    let drive := s.pid.drive s.cfg.realFmt s.tickError temp
    let s := { s with pid := s.pid.after s.cfg.realFmt s.tickError temp }
    if drive = .nan then s.abnormalExit temp else s.tickWrite temp (drive.round s.cfg.realFmt)

/-- REG.START (R434): while RUNNING it first stops. -/
def execRegStart (s : State) : Result :=
  .next (
    let s := if s.regRunning then s.stopProcedure else s
    (State.schedule { s with reg := { s.reg with state := .running, fault := false, nextDue := s.now } } .regTick
      s.now).reply .ok [])

/-- REG.STOP (R435): the stop procedure, also while STOPPED. -/
def execRegStop (s : State) : Result := .next (s.stopProcedure.reply .ok [])

/-- REG.SETTARGET (R438), what it stores rounded to `REAL_FMT` (R13). -/
def execRegSettarget (t : Real64) (s : State) : Result :=
  .next (if !realFinite t then s.raise .badarg []
    else State.reply { s with reg := { s.reg with target := s.toReal t } } .ok [])

/-- REG.SETTIMESTEP (R439): the operand itself is converted to a period, by one exact product (R142, R148); `timeStep` stores
it rounded to `REAL_FMT` (R13). A pending tick keeps its due time. -/
def execRegSettimestep (sec : Real64) (s : State) : Result :=
  .next (if !realFinite sec then s.raise .badarg []
    else if !legalPeriod (periodOf sec) then s.raise .badarg []
    else State.reply
      { s with reg := { s.reg with timeStep := s.toReal sec, periodUs := (periodOf sec).toNat } } .ok [])

/-- REG.SETPOWER (R440). -/
def execRegSetpower (on : Byte) (s : State) : Result :=
  .next (if notBit on then s.raise .badarg []
    else State.reply { s with reg := { s.reg with power := bitOf on } } .ok [])

/-- REG.READ (R441). -/
def execRegRead (s : State) : Result := .next (s.reply .ok [.real s.reg.latestTemp, .real s.reg.latestDrive])

/-- REG.STATUS (R442). -/
def execRegStatus (s : State) : Result :=
  .next (s.reply .ok
    [.bool s.regRunning, .bool s.reg.fault, .bool s.reg.power, .real s.reg.target, .real s.reg.timeStep])

end Sys2Proof.Machine
end

