-- ==== Sys2Proof/Machine/Dispatch.lean ====
section
/-! DEFINITION. What each instruction does: one arm for each constructor of `Instr`, each one direct call of its
meaning. -/

namespace Sys2Proof.Machine

def exec (i : Instr) (s : State) : Host.Outcome State Fault Refusal :=
  match i with
  | .gpioSetdir pin dir => Sys2Proof.Machine.execGpioSetdir pin dir s
  | .gpioWrite pin level => Sys2Proof.Machine.execGpioWrite pin level s
  | .gpioRead pin => Sys2Proof.Machine.execGpioRead pin s
  | .gpioPulse pin level width => Sys2Proof.Machine.execGpioPulse pin level width s
  | .gpioSetedge pin mode => Sys2Proof.Machine.execGpioSetedge pin mode s
  | .gpioWaitedge pin timeout => Sys2Proof.Machine.execGpioWaitedge pin timeout s
  | .gpioSubscribe pin => Sys2Proof.Machine.execGpioSubscribe pin s
  | .gpioUnsubscribe pin => Sys2Proof.Machine.execGpioUnsubscribe pin s
  | .clkNow => Sys2Proof.Machine.execClkNow s
  | .swStart => Sys2Proof.Machine.execSwStart s
  | .swStop => Sys2Proof.Machine.execSwStop s
  | .swElapsed => Sys2Proof.Machine.execSwElapsed s
  | .adcOpen => Sys2Proof.Machine.execAdcOpen s
  | .adcGetvoltage ch => Sys2Proof.Machine.execAdcGetvoltage ch s
  | .pwmSetvalue x => Sys2Proof.Machine.execPwmSetvalue x s
  | .pwmSetrange range => Sys2Proof.Machine.execPwmSetrange range s
  | .pwmSetdivisor divisor => Sys2Proof.Machine.execPwmSetdivisor divisor s
  | .pwmEnable => Sys2Proof.Machine.execPwmEnable s
  | .pwmDisable => Sys2Proof.Machine.execPwmDisable s
  | .pwmGet => Sys2Proof.Machine.execPwmGet s
  | .tempGet => Sys2Proof.Machine.execTempGet s
  | .tempDiag => Sys2Proof.Machine.execTempDiag s
  | .rangeMeasure => Sys2Proof.Machine.execRangeMeasure s
  | .rangeGet => Sys2Proof.Machine.execRangeGet s
  | .rangeReady => Sys2Proof.Machine.execRangeReady s
  | .rangeSetspeed c => Sys2Proof.Machine.execRangeSetspeed c s
  | .flowGetcount => Sys2Proof.Machine.execFlowGetcount s
  | .flowGetlitres => Sys2Proof.Machine.execFlowGetlitres s
  | .flowNotifyafter litres => Sys2Proof.Machine.execFlowNotifyafter litres s
  | .flowStatus => Sys2Proof.Machine.execFlowStatus s
  | .btnGet index => Sys2Proof.Machine.execBtnGet index s
  | .btnGetmask => Sys2Proof.Machine.execBtnGetmask s
  | .pressGetbar => Sys2Proof.Machine.execPressGetbar s
  | .pidSetgains gp gi gd => Sys2Proof.Machine.execPidSetgains gp gi gd s
  | .pidSetlimits min max => Sys2Proof.Machine.execPidSetlimits min max s
  | .pidUpdate error position => Sys2Proof.Machine.execPidUpdate error position s
  | .pidRead => Sys2Proof.Machine.execPidRead s
  | .regStart => Sys2Proof.Machine.execRegStart s
  | .regStop => Sys2Proof.Machine.execRegStop s
  | .regSettarget t => Sys2Proof.Machine.execRegSettarget t s
  | .regSettimestep sec => Sys2Proof.Machine.execRegSettimestep sec s
  | .regSetpower on => Sys2Proof.Machine.execRegSetpower on s
  | .regRead => Sys2Proof.Machine.execRegRead s
  | .regStatus => Sys2Proof.Machine.execRegStatus s
  | .ntfPop => Sys2Proof.Machine.execNtfPop s
  | .ntfEnable mask => Sys2Proof.Machine.execNtfEnable mask s
  | .ntfStatus => Sys2Proof.Machine.execNtfStatus s
  | .envPin pin level => Sys2Proof.Machine.execEnvPin pin level s
  | .envTime t => Sys2Proof.Machine.execEnvTime t s

end Sys2Proof.Machine
end

