-- ==== Sys2Proof/Machine/Timed.lean ====
section
/-! DEFINITION. The timed actions (R39): what each does when it fires. -/

namespace Sys2Proof.Machine

/-- The timed action `(HOST, deadline)` (R40): the end of a GPIO.PULSE (R223), or the timeout of a GPIO.WAITEDGE (R225) or
a RANGE.READY (R349). -/
def deadline (s : State) : Result :=
  match s.port with
  | .held { op := .pulse pin level _, .. } => .next ((s.pinOut pin.toNat (!bitOf level)).complete .ok [])
  | .held { op := .waitEdge _ _, .. } => .next (s.complete .timeout [.u8 0, .u32 0])
  | .held { op := .ready, .. } => .next (s.complete .timeout [])
  | _ => .fault .deadlineWithoutHold

/-- What a timed action does when it fires, `s` being the state in which it is no longer pending. -/
def fire (a : Action) (s : State) : Result :=
  match a with
  | .hostDeadline => deadline s
  | .rangeSample => .next s.sampleStart
  | .rangeRetry => .next (s.measureStart .sampler)
  | .rangeHostTrig => .next (s.measureStart .host)
  | .rangeTrigEnd => .next s.trigEnd
  | .rangeEchoTimeout => .next s.echoTimeout
  | .btnPoll => .next s.btnPoll
  | .adcPoll =>
    match s.adc.phase with
    | .converting _ req t0 => .next (s.poll req t0)
    | .idle => .fault .pollWithoutConversion
  | .regTick => if s.regRunning then .next s.regTick else .fault .tickWhileStopped
  | .flowIdle => .next s.flowStop

end Sys2Proof.Machine
end

