-- ==== Sys2Proof/Machine/Select.lean ====
section
/-! DEFINITION. Step selection (49_notify_env.md R471): which step is taken next, the acceptance of a host frame (R601), the
taking of an environment frame (R144), the firing of a timed action (R39). -/

namespace Sys2Proof.Machine

/-- The next step's choice: the next scripted one, else a free value (U6). -/
def State.nextPick (s : State) : Pick × State :=
  match s.outside.picks with
  | p :: rest => (p, { s with outside := { s.outside with picks := rest } })
  | [] => (Config.freePick s.outside.drawn, { s with outside := s.outside.tick })

/-- The acceptance of the host's next command (R33, R112, R601): only while the port is IDLE and a frame waits, else it is
no step and nothing happens. An opcode that is not listed for the host port answers ILLEGAL, alone (R147). -/
def acceptHost (s : State) : Result :=
  match s.port, s.outside.hostIn with
  | .held _, _ => .next s
  | .idle, [] => .next s
  | .idle, f :: rest =>
    let s := { s with outside := { s.outside with hostIn := rest } }
    match decodeOn .host f with
    | .ok i => exec i s
    | .error (.unlisted _) => .next (s.raise .illegal [])
    | .error _ => .refused .brokenFrame

/-- The taking of the environment's next frame (R144, R471), whatever the port's state; a frame with an opcode other than
ENV.PIN's and ENV.TIME's is ignored. -/
def takeEnv (s : State) : Result :=
  match s.outside.envIn with
  | [] => .next s
  | f :: rest =>
    let s := { s with outside := { s.outside with envIn := rest } }
    match decodeOn .environment f with
    | .ok i => exec i s
    | .error (.unlisted _) => .next s
    | .error _ => .refused .brokenFrame

/-- The firing of a timed action (R39): only while it is pending and enabled (`due ≤ now`), else it is no step. It is no
longer pending when it runs. -/
def takeTimed (a : Action) (s : State) : Result :=
  match s.timers.get a with
  | none => .next s
  | some due => if due ≤ s.now then fire a (s.cancel a) else .next s

/-- The step that a choice names. -/
def take (p : Pick) (s : State) : Result :=
  match p with
  | .host => acceptHost s
  | .env => takeEnv s
  | .timed a => takeTimed a s

/-- Present a frame as the very next step: at the head of its port's frames, chosen next, and, for a host frame, with the
host port IDLE. -/
def State.present (s : State) (f : Frame) : State :=
  match framePort f with
  | .host =>
    { s with port := .idle, outside := { s.outside with hostIn := f :: s.outside.hostIn, picks := .host :: s.outside.picks } }
  | .environment =>
    { s with outside := { s.outside with envIn := f :: s.outside.envIn, picks := .env :: s.outside.picks } }

end Sys2Proof.Machine
end

