-- ==== Sys2Proof/Machine/Step.lean ====
section
/-! DEFINITION. One step of the machine (R8, R110): a run starts only from a well-formed configuration (R10), and each step
is the one that the next choice names (R471). -/

namespace Sys2Proof.Machine

/-- One atomic step. -/
def step (s : State) : Host.Outcome State Fault Refusal :=
  if s.cfg.wellFormed then take s.nextPick.1 s.nextPick.2 else .refused .illFormedConfig

/-- The state in which the instruction whose first `nbits` bits are `w` (its other bits 0) is what the next step runs: its
frame waits at its port and is chosen next (log entry 13). -/
def State.withFetchWord (s : State) (nbits w : Nat) : State := s.present (wordFrame nbits w)

end Sys2Proof.Machine
end

