-- ==== Sys2Proof/Safety.lean ====
section
/-! DEFINITION. What holds of every state a run reaches, in the terms the statements use: each invariant is a clause of the
spec about the whole machine. -/

namespace Sys2Proof.Machine

/-! ### The schedule (R39, R40, R470) -/

/-- No pending timed action is overdue: "time can never pass a pending due time" (R470). -/
def State.NoOverdue (s : State) : Prop := ∀ a due, s.timers.get a = some due → s.now ≤ due

/-- The commands that may set a deadline (R40, D69). -/
def HeldOp.mayHaveDeadline : HeldOp → Bool
  | .pulse _ _ _ => true
  | .waitEdge _ _ => true
  | .ready => true
  | .getVoltage _ => false
  | .measure => false
  | .getBar => false

/-- `(HOST, deadline)` is pending exactly for a hold with a deadline, at that deadline: "no deadline outlives its hold"
(R40). -/
def State.HoldSound (s : State) : Prop :=
  match s.port with
  | .idle => s.timers.hostDeadline = none
  | .held h => s.timers.hostDeadline = h.tDl ∧ (h.tDl.isSome → h.op.mayHaveDeadline)

/-- `(ADC, poll)` is pending exactly while a conversion is in flight, no later than its timeout plus one poll interval
after the conversion's start, and no request waits while none is in flight (R255, R258). -/
def State.AdcSound (s : State) : Prop :=
  match s.adc.phase with
  | .idle => s.timers.adcPoll = none ∧ s.adc.queue = []
  | .converting _ _ t0 => ∃ due, s.timers.adcPoll = some due ∧ due ≤ t0 + s.cfg.adcTimeoutUs + s.cfg.adcPollUs

/-- `(REG, tick)` is pending exactly while the regulator runs, at `nextDue` (R431, R434, R436). -/
def State.RegSound (s : State) : Prop :=
  match s.reg.state with
  | .stopped => s.timers.regTick = none
  | .running => s.timers.regTick = some s.reg.nextDue

/-- The schedule of timed actions agrees with the units' phases. -/
def State.ScheduleSound (s : State) : Prop := s.NoOverdue ∧ s.HoldSound ∧ s.AdcSound ∧ s.RegSound

/-! ### Every hold is lifted (R40, R258, R344, R347, R349) -/

/-- The conversion requests in flight or waiting (R258). -/
def Adc.outstanding (u : Adc) : List AdcReq :=
  (match u.phase with | .idle => [] | .converting _ req _ => [req]) ++ u.queue.map Prod.snd

/-- Whether the port is held by ADC.GETVOLTAGE. -/
def State.awaitsVoltage (s : State) : Bool :=
  match s.port with
  | .held { op := .getVoltage _, .. } => true
  | _ => false

/-- Whether the port is held by PRESS.GETBAR. -/
def State.awaitsBar (s : State) : Bool :=
  match s.port with
  | .held { op := .getBar, .. } => true
  | _ => false

/-- Each requester has at most one conversion request outstanding: the host's one is that of the command that holds the
port (R261, R395), the button unit's that of its last poll (R390, R258). In PINS mode it has none. -/
def State.RequestsSound (s : State) : Prop :=
  s.adc.outstanding.count .host = s.awaitsVoltage.toNat ∧
  s.adc.outstanding.count .press = s.awaitsBar.toNat ∧
  s.adc.outstanding.count .btn = s.btn.polling.toNat ∧
  (s.cfg.btnMode = .pins → s.btn.polling = false)

/-- Whether the port is held by a command that waits for the range finder (R347, R349). -/
def State.awaitsRange (s : State) : Bool :=
  match s.port with
  | .held { op := .measure, .. } => true
  | .held { op := .ready, .. } => true
  | _ => false

/-- A pulse and an edge wait have a deadline, a READY has one exactly in BACKGROUND mode, and a MEASURE holds the port in
POLL mode only (R40, R223, R225, R347, R349). -/
def State.HoldTimed (s : State) : Prop :=
  match s.port with
  | .held { op := .pulse _ _ _, tDl := dl, .. } => dl.isSome = true
  | .held { op := .waitEdge _ _, tDl := dl, .. } => dl.isSome = true
  | .held { op := .ready, tDl := dl, .. } => (dl.isSome = true ↔ s.cfg.rangeMode = .background)
  | .held { op := .measure, .. } => s.cfg.rangeMode = .poll
  | _ => True

/-- The range finder's measurement in progress has exactly the timed action its phase waits for (R341, R351). -/
def State.MeasurementTimed (s : State) : Prop :=
  (s.timers.rangeTrigEnd.isSome ↔ s.range.phase = .trig) ∧
  (s.timers.rangeEchoTimeout.isSome ↔ s.range.phase = .waitRise ∨ s.range.phase = .waitFall)

/-- In BACKGROUND mode the sampler loop never stops: between measurements exactly one next start is pending (R344), and
every measurement is the sampler's. In POLL mode a measurement is pending or under way exactly while a command waits for
it (R347, R349). -/
def State.RangeLoop (s : State) : Prop :=
  s.MeasurementTimed ∧
  match s.cfg.rangeMode with
  | .background =>
    s.timers.rangeHostTrig = none ∧ (s.range.phase ≠ .idle → s.range.req = .sampler) ∧
    ((s.timers.rangeSample.isSome ∨ s.timers.rangeRetry.isSome) ↔ s.range.phase = .idle) ∧
    (s.timers.rangeSample = none ∨ s.timers.rangeRetry = none)
  | .poll =>
    s.timers.rangeSample = none ∧ s.timers.rangeRetry = none ∧ (s.range.phase ≠ .idle → s.range.req = .host) ∧
    (s.awaitsRange = true ↔ (s.timers.rangeHostTrig.isSome ∨ s.range.phase ≠ .idle)) ∧
    (s.timers.rangeHostTrig.isSome → s.range.phase = .idle)

/-- "No measurement starts earlier than `lastTrigger + MIN_TRIGGER_INTERVAL_US`" (R346): so is every pending start. -/
def State.TriggersSpaced (s : State) : Prop :=
  ∀ a ∈ [Action.rangeSample, Action.rangeRetry, Action.rangeHostTrig], ∀ due last,
    s.timers.get a = some due → s.range.lastTrigger = some last → last + s.cfg.minTriggerIntervalUs ≤ due

/-- The invariants of the schedule, the holds, the conversion requests and the range finder together. -/
def State.Sound (s : State) : Prop := s.ScheduleSound ∧ s.RequestsSound ∧ s.HoldTimed ∧ s.RangeLoop ∧ s.TriggersSpaced

/-! ### The units' fields stay legal -/

/-- The legal values of the PWM's fields (R38). -/
def State.PwmLegal (s : State) : Prop :=
  1 ≤ s.pwm.divisor.toNat ∧ s.pwm.divisor.toNat ≤ s.cfg.pwmDivMax ∧ 1 ≤ s.pwm.range.toNat ∧
  s.pwm.value.toNat ≤ s.pwm.range.toNat ∧ realLe zero64 s.pwm.frac = true ∧ realLe s.pwm.frac one64 = true

/-- The notification queue's bound and the enable mask's reserved bits (R48, R465). -/
def State.QueueLegal (s : State) : Prop := s.ntf.queue.length ≤ s.cfg.ntfDepth ∧ s.ntf.enable.toNat ≤ 7

/-- The decoder's accumulator (R41): fewer than `TEMP_FRAME_BITS` bits, in the word's low bits. -/
def State.DecoderLegal (s : State) : Prop :=
  s.temp.bitCount < s.cfg.tempFrameBits ∧ s.temp.word.toNat < 2 ^ s.temp.bitCount

/-- The button mask has no bit of a button that does not exist (R44, R396), and each button has its last change. -/
def State.ButtonsLegal (s : State) : Prop :=
  s.btn.mask.toNat < 2 ^ s.cfg.nbtn ∧ s.btn.lastChange.length = s.cfg.nbtn

/-- What a REAL field of `s` stores of the finite REAL `x` (R13, R50, R605): the value of `REAL_FMT` nearest to it, of its sign;
a free finite one where `x` rounds to no finite value (log entry 27). -/
def State.Stores (s : State) (x stored : Real64) : Prop :=
  realFinite stored = true ∧ realSign stored = realSign x ∧
  (realFinite (toFormat s.cfg.realFmt x) = true → stored = toFormat s.cfg.realFmt x) ∧
  (s.cfg.realFmt.legal = true → inFormat s.cfg.realFmt stored = true)

/-- The REAL-valued fields (R50). -/
def State.reals (s : State) : List Real64 :=
  [s.pid.pGain, s.pid.iGain, s.pid.dGain, s.pid.iMin, s.pid.iMax, s.pid.integrator, s.pid.lastPosition, s.reg.target,
    s.reg.timeStep, s.reg.latestTemp, s.reg.latestDrive, s.temp.sample.value, s.range.speed, s.range.filtered, s.pwm.frac]

/-- Every REAL register holds a value of `REAL_FMT`, and none is ever a NaN (R50): those that hold operands, samples and
drives are finite (R605), and the smoothed range is a number, which can be infinite (log entry 14). The speed is not negative,
and positive in the default format (R350, R13); the period is legal (R47). -/
def State.RealsLegal (s : State) : Prop :=
  realFinite s.pid.pGain = true ∧ realFinite s.pid.iGain = true ∧ realFinite s.pid.dGain = true ∧
  realFinite s.pid.iMin = true ∧ realFinite s.pid.iMax = true ∧ realFinite s.pid.integrator = true ∧
  realFinite s.pid.lastPosition = true ∧ realFinite s.reg.target = true ∧ realFinite s.reg.timeStep = true ∧
  realFinite s.reg.latestTemp = true ∧ realFinite s.reg.latestDrive = true ∧
  realFinite s.temp.sample.value = true ∧ realFinite s.pwm.frac = true ∧
  realFinite s.range.speed = true ∧ realSign s.range.speed = false ∧
  (s.cfg.realFmt = .binary64 → realLt zero64 s.range.speed = true) ∧ realNaN s.range.filtered = false ∧
  legalPeriod s.reg.periodUs = true ∧
  s.reals.all (inFormat s.cfg.realFmt) = true

/-- Reading the stopwatch gives a natural number of microseconds: it started no later than it stopped, and not in the
future (R32, R231 to R233). -/
def State.ClockLegal (s : State) : Prop :=
  s.clk.swStart ≤ s.now ∧ (s.clk.swRunning = false → s.clk.swStart ≤ s.clk.swStop) ∧ s.clk.swStop ≤ s.now

/-! ### What no step changes -/

/-- The configuration, the number of pins, every pin's owner, and the direction and edge mode of every pin a unit owns
(R35, R36, R49, R108, R201). -/
def State.SameWiring (s t : State) : Prop :=
  t.cfg = s.cfg ∧ t.pins.length = s.pins.length ∧
  ∀ p, (t.pin p).owner = (s.pin p).owner ∧
    ((s.pin p).owner ≠ .host → (t.pin p).dir = (s.pin p).dir ∧ (t.pin p).edgeMode = (s.pin p).edgeMode)

end Sys2Proof.Machine
end

