-- ==== Sys2Proof/WellFormed.lean ====
section
/-! DEFINITION. The static legality of an instruction's operands (R147): what can be told from the operands alone, without
the configuration or the state. Every frame of the right length decodes; a host command that is not well formed answers
BADARG when it runs, and an ill-formed ENV.PIN is ignored. (Well-formed CONFIGURATIONS are `Config.wellFormed`, R10.) -/

namespace Sys2Proof

open Sys2Proof.Machine

/-- A `bool`, direction or level operand is 0 or 1 (R142, R147). -/
def legalBit (b : Byte) : Bool := b.toNat ≤ 1

/-- An edge mode is 0 to 3 (R147, R224). -/
def legalMode (m : Byte) : Bool := m.toNat ≤ 3

/-- An ADC channel is 0 to 3 (R261). -/
def legalChannel (ch : Byte) : Bool := ch.toNat ≤ 3

/-- A notification mask has its reserved bits 3 to 7 clear (R465). -/
def legalMask (mask : Byte) : Bool := mask.toNat ≤ 7

/-- Whether an instruction's operands lie in the legal sets of R147, R605 and its own rule. -/
def Instr.wellFormed : Instr → Bool
  | .gpioSetdir _ dir => legalBit dir
  | .gpioWrite _ level => legalBit level
  | .gpioPulse _ level width => legalBit level && width ≠ 0
  | .gpioSetedge _ mode => legalMode mode
  | .adcGetvoltage ch => legalChannel ch
  | .pwmSetvalue x => realFinite x
  | .pwmSetrange range => range ≠ 0
  | .pwmSetdivisor divisor => divisor ≠ 0
  | .rangeSetspeed c => realFinite c && realLt zero64 c
  | .flowNotifyafter litres => realFinite litres && realLe zero64 litres
  | .pidSetgains p i d => realFinite p && realFinite i && realFinite d
  | .pidSetlimits min max => realFinite min && realFinite max
  | .pidUpdate error position => realFinite error && realFinite position
  | .regSettarget t => realFinite t
  | .regSettimestep sec => realFinite sec && legalPeriod (periodOf sec)
  | .regSetpower on => legalBit on
  | .ntfEnable mask => legalMask mask
  | .envPin _ level => legalBit level
  | .gpioRead _ | .gpioWaitedge _ _ | .gpioSubscribe _ | .gpioUnsubscribe _ | .clkNow | .swStart | .swStop | .swElapsed
  | .adcOpen | .pwmEnable | .pwmDisable | .pwmGet | .tempGet | .tempDiag | .rangeMeasure | .rangeGet | .rangeReady
  | .flowGetcount | .flowGetlitres | .flowStatus | .btnGet _ | .btnGetmask | .pressGetbar | .pidRead | .regStart
  | .regStop | .regRead | .regStatus | .ntfPop | .ntfStatus | .envTime _ => true

end Sys2Proof
end

