-- ==== Sys2Proof/Certificates/Slice0/Obligations.lean ====
section
/-! DEFINITION. The statements for the provers. Each formalises the rules of spec/ that its docstring names. A statement
about an instruction is an equation for every state and every operand, its checks in the rule's order, so that it says
both where the instruction completes and everything it leaves unchanged. -/

open Sys2Proof Sys2Proof.Machine

/-! ### Encoding (R140 to R149) -/

/-- Decoding the frame of any instruction gives it back, with every operand at every value (R141, R142, R146, R149). -/
def Obligations.EncodeThenDecode : Prop := ∀ i : Instr, decode (encode i) = .ok i

/-- A frame that decodes on a port is the frame of the instruction it gives, which belongs to that port: no two frames
mean the same instruction, and no bit of a frame is dropped (R141, R144, R149). -/
def Obligations.DecodeThenEncode : Prop :=
  ∀ (port : PortName) (f : Frame) (i : Instr), decodeOn port f = .ok i → encode i = f ∧ framePort f = port

/-- Frames of 95_test_vectors.md, one of each unit, decode to the commands they stand for. -/
def Obligations.SpecFramesDecode : Prop :=
  decodeOn .host [0x03, 0x11, 0x01, 0x00, 0x00, 0x00, 0x0A] = .ok (.gpioPulse 17 1 10) ∧
  decodeOn .host [0x10] = .ok .clkNow ∧
  decodeOn .host [0x21, 0x02] = .ok (.adcGetvoltage 2) ∧
  decodeOn .host [0x31, 0x00, 0x00, 0x07, 0xD0] = .ok (.pwmSetrange 2000) ∧
  decodeOn .host [0x40] = .ok .tempGet ∧
  decodeOn .host [0x53, 0x40, 0x75, 0x70, 0, 0, 0, 0, 0] = .ok (.rangeSetspeed 0x4075700000000000) ∧
  decodeOn .host [0x62, 0x3F, 0xF0, 0, 0, 0, 0, 0, 0] = .ok (.flowNotifyafter 0x3FF0000000000000) ∧
  decodeOn .host [0x70, 0x01] = .ok (.btnGet 1) ∧
  decodeOn .host [0x82, 0x40, 0x08, 0, 0, 0, 0, 0, 0, 0, 0, 0, 0, 0, 0, 0, 0] = .ok (.pidUpdate 0x4008000000000000 0) ∧
  decodeOn .host [0x94, 0x01] = .ok (.regSetpower 1) ∧
  decodeOn .host [0xA1, 0x04] = .ok (.ntfEnable 4) ∧
  decodeOn .environment [0xF0, 0x11, 0x01] = .ok (.envPin 17 1) ∧
  decodeOn .environment [0xF1, 0, 0, 0, 0, 0, 0, 0x03, 0xE8] = .ok (.envTime 1000)

/-- The response on the wire (R142, R143, R600): the status codes 0 to 7; a frame is the status byte and then the bytes of
the results, in order; a result of each type has its length and is the big-endian number of its bytes; and no two responses
with results of the same types have the same frame. -/
def Obligations.ResponseFrames : Prop :=
  ([Status.ok, .illegal, .badarg, .busy, .timeout, .absent, .ioerr, .empty].map Status.code = [0, 1, 2, 3, 4, 5, 6, 7] ∧
    ∀ st : Status, st.code.toNat ≤ 7) ∧
  (∀ r : Response, r.frame = r.status.code :: r.results.flatMap Val.bytes) ∧
  (∀ (n : Nat) (b : Byte) (w : U32) (x : Real64) (v : Val),
    ((v = .u8 b ∧ n = b.toNat) ∨ (v = .u32 w ∧ n = w.toNat) ∨ (v = .real x ∧ n = x.toNat)) →
    v.bytes.length = (match v with | .u8 _ => 1 | .u32 _ => 4 | .real _ => 8) ∧
    v.bytes.foldl (fun m byte => 2 ^ 8 * m + byte.toNat) 0 = n) ∧
  ∀ r r' : Response, r.results.map (fun v => v.bytes.length) = r'.results.map (fun v => v.bytes.length) →
    r.frame = r'.frame → r = r'

/-- A host frame whose opcode R146 does not list for the host port, unit 0xF among them, answers ILLEGAL alone and changes
no state of the block (R147, R601, R144). An environment frame with another opcode than 0xF0 and 0xF1 is ignored (R144). -/
def Obligations.UnlistedOpcode : Prop :=
  ∀ (s : State) (opcode : Byte) (operands : Frame) (rest : List Frame), s.cfg.wellFormed = true →
    (s.nextPick.1 = .host → s.port = .idle → s.outside.hostIn = (opcode :: operands) :: rest →
      opcode.toNat ∉ (
        [0x00, 0x01, 0x02, 0x03, 0x04, 0x05, 0x06, 0x07, 0x10, 0x11, 0x12, 0x13, 0x20, 0x21, 0x30, 0x31, 0x32, 0x33, 0x34,
          0x35, 0x40, 0x41, 0x50, 0x51, 0x52, 0x53, 0x60, 0x61, 0x62, 0x63, 0x70, 0x71, 0x72, 0x80, 0x81, 0x82, 0x83, 0x90,
          0x91, 0x92, 0x93, 0x94, 0x95, 0x96, 0xA0, 0xA1, 0xA2] : List Nat) →
      step s = .next { s with
        outside := { s.nextPick.2.outside with hostIn := rest }
        responses := s.responses ++ [{ status := .illegal, results := [] }] }) ∧
    (s.nextPick.1 = .env → s.outside.envIn = (opcode :: operands) :: rest → opcode ≠ 0xF0 → opcode ≠ 0xF1 →
      step s = .next { s with outside := { s.nextPick.2.outside with envIn := rest } })

/-! ### Steps (R8, R33, R39, R110, R471) -/

/-- A step runs the decoded instruction: when the next choice is a port whose next frame decodes, and, for the host port,
the port is IDLE, the step is exactly `exec` of that instruction with the frame taken (R110, R471). -/
def Obligations.StepRunsDecoded : Prop :=
  ∀ (s : State) (f : Frame) (rest : List Frame) (i : Instr), s.cfg.wellFormed = true →
    (s.nextPick.1 = .host → s.port = .idle → s.outside.hostIn = f :: rest → decodeOn .host f = .ok i →
      step s = exec i { s with outside := { s.nextPick.2.outside with hostIn := rest } }) ∧
    (s.nextPick.1 = .env → s.outside.envIn = f :: rest → decodeOn .environment f = .ok i →
      step s = exec i { s with outside := { s.nextPick.2.outside with envIn := rest } })

/-- The other steps: while the port is HELD no host command is accepted (R33); an enabled timed action fires, no longer
pending (R39), one that is not pending or not yet due does not; and no run starts from an ill-formed configuration
(R10). That a choice of an impossible step is taken and changes nothing is the model's choice (log entry 5). -/
def Obligations.StepChoices : Prop :=
  ∀ (s : State),
    (s.cfg.wellFormed = true → s.nextPick.1 = .host → ∀ h, s.port = .held h →
      step s = .next { s with outside := s.nextPick.2.outside }) ∧
    (s.cfg.wellFormed = true → ∀ a, s.nextPick.1 = .timed a →
      (∀ due, s.timers.get a = some due → due ≤ s.now →
        step s = fire a { s with outside := s.nextPick.2.outside, timers := s.timers.set a none }) ∧
      ((∀ due, s.timers.get a = some due → s.now < due) → step s = .next { s with outside := s.nextPick.2.outside })) ∧
    (s.cfg.wellFormed = false → step s = .refused .illFormedConfig)

/-- A host command with an operand outside its legal set, a non-finite REAL among them, answers BADARG with zero results
and changes nothing, whatever else would apply; an ENV.PIN with a level above 1 is ignored (R147, R143, R601, R605, R210). The zero
results follow R143 (log entry 16). -/
def Obligations.IllFormedOperands : Prop :=
  ∀ (i : Instr) (s : State), i.wellFormed = false →
    (i.port = .host → ∃ zeros, (∀ v ∈ zeros, v = .u8 0 ∨ v = .u32 0 ∨ v = .real 0) ∧
      exec i s = .next { s with responses := s.responses ++ [{ status := .badarg, results := zeros }] }) ∧
    (i.port = .environment → exec i s = .next s)

/-- A command that ends by `raise` has changed no state: where an instruction's one response has a status that only
`raise` gives, or EMPTY, nothing but the response is added (R602). -/
def Obligations.RaiseChangesNothing : Prop :=
  ∀ (i : Instr) (s t : State) (r : Response), exec i s = .next t → t.responses = s.responses ++ [r] →
    r.status ∈ [Status.illegal, .badarg, .busy, .empty] → t = { s with responses := s.responses ++ [r] }

/-! ### GPIO (R201, R210 to R227) -/

/-- The write-class commands raise BADARG for a pin out of range and BUSY for an owned pin; the observing commands are
allowed on every pin below NPINS, whatever its owner (R201). -/
def Obligations.PinOwnership : Prop :=
  ∀ (s : State) (pin b : Byte) (w : U32),
    (∀ i, (i = Instr.gpioSetdir pin b ∧ b.toNat ≤ 1) ∨ (i = Instr.gpioWrite pin b ∧ b.toNat ≤ 1) ∨
        (i = Instr.gpioPulse pin b w ∧ b.toNat ≤ 1 ∧ w ≠ 0 ∧ w.toNat ≤ s.cfg.pulseMaxUs) ∨
        (i = Instr.gpioSetedge pin b ∧ b.toNat ≤ 3) →
      (s.cfg.npins ≤ pin.toNat → exec i s = .next (s.reply .badarg [])) ∧
      (pin.toNat < s.cfg.npins → (s.pin pin.toNat).owner ≠ .host → exec i s = .next (s.reply .busy []))) ∧
    (pin.toNat < s.cfg.npins →
      ∀ i ∈ [Instr.gpioRead pin, .gpioWaitedge pin w, .gpioSubscribe pin, .gpioUnsubscribe pin],
        ∃ t, exec i s = .next t ∧ ∀ r, t.responses = s.responses ++ [r] → r.status ≠ .busy)

/-- GPIO.SETDIR (R220), GPIO.WRITE (R221), GPIO.SETEDGE (R224), GPIO.SUBSCRIBE (R226) and GPIO.UNSUBSCRIBE (R227). That the
level an input takes is the scripted one, else a free value of the draw counter, is the model's choice (log entry 6). -/
def Obligations.GpioSettings : Prop :=
  ∀ (s : State) (pin b : Byte),
    encode (.gpioSetdir pin b) = [0x00, pin, b] ∧
    exec (.gpioSetdir pin b) s = .next (
      if 1 < b.toNat then s.reply .badarg []
      else if s.cfg.npins ≤ pin.toNat then s.reply .badarg []
      else if (s.pin pin.toNat).owner ≠ .host then s.reply .busy []
      else if b = 1 then
        State.reply { s with pins := s.pins.set pin.toNat { s.pin pin.toNat with dir := .output } } .ok []
      else match s.outside.levels with
        | l :: rest =>
          State.reply { s with
            pins := s.pins.set pin.toNat { s.pin pin.toNat with dir := .input, inLevel := l }
            outside := { s.outside with levels := rest } } .ok []
        | [] =>
          State.reply { s with
            pins := s.pins.set pin.toNat
              { s.pin pin.toNat with dir := .input, inLevel := Config.freeLevel s.outside.drawn }
            outside := { s.outside with drawn := s.outside.drawn + 1 } } .ok []) ∧
    encode (.gpioWrite pin b) = [0x01, pin, b] ∧
    exec (.gpioWrite pin b) s = .next (
      if 1 < b.toNat then s.reply .badarg []
      else if s.cfg.npins ≤ pin.toNat then s.reply .badarg []
      else if (s.pin pin.toNat).owner ≠ .host then s.reply .busy []
      else State.reply { s with
        pins := s.pins.set pin.toNat { s.pin pin.toNat with outLevel := decide (b = 1) } } .ok []) ∧
    encode (.gpioSetedge pin b) = [0x04, pin, b] ∧
    exec (.gpioSetedge pin b) s = .next (
      if 3 < b.toNat then s.reply .badarg []
      else if s.cfg.npins ≤ pin.toNat then s.reply .badarg []
      else if (s.pin pin.toNat).owner ≠ .host then s.reply .busy []
      else State.reply { s with
        pins := s.pins.set pin.toNat { s.pin pin.toNat with edgeMode :=
          (if b = 0 then .off else if b = 1 then .rising else if b = 2 then .falling else .both) } } .ok []) ∧
    encode (.gpioSubscribe pin) = [0x06, pin] ∧
    exec (.gpioSubscribe pin) s = .next (
      if s.cfg.npins ≤ pin.toNat then s.reply .badarg []
      else State.reply { s with pins := s.pins.set pin.toNat { s.pin pin.toNat with hostSub := true } } .ok []) ∧
    encode (.gpioUnsubscribe pin) = [0x07, pin] ∧
    exec (.gpioUnsubscribe pin) s = .next (
      if s.cfg.npins ≤ pin.toNat then s.reply .badarg []
      else State.reply { s with pins := s.pins.set pin.toNat { s.pin pin.toNat with hostSub := false } } .ok [])

/-- GPIO.READ (R222): an IN pin's input level, an OUT pin's output latch, the PWM pin's waveform (R288: low when disabled
or at value 0, high at value = range, a draw otherwise). That the draw is the scripted level, else a free value of the draw
counter, is the model's choice (log entry 6). The zero result of a refusal follows R143 (log entry 16). -/
def Obligations.GpioRead : Prop :=
  ∀ (s : State) (pin : Byte),
    encode (.gpioRead pin) = [0x02, pin] ∧
    exec (.gpioRead pin) s = .next (
      if s.cfg.npins ≤ pin.toNat then s.reply .badarg [.u8 0]
      else if pin.toNat = s.cfg.pinPwm then
        if s.pwm.enabled = false ∨ s.pwm.value = 0 then s.reply .ok [.u8 0]
        else if s.pwm.value = s.pwm.range then s.reply .ok [.u8 1]
        else match s.outside.levels with
          | l :: rest =>
            State.reply { s with outside := { s.outside with levels := rest } } .ok [.u8 (if l then 1 else 0)]
          | [] =>
            State.reply { s with outside := { s.outside with drawn := s.outside.drawn + 1 } } .ok
              [.u8 (if Config.freeLevel s.outside.drawn then 1 else 0)]
      else if (s.pin pin.toNat).dir = .input then s.reply .ok [.u8 (if (s.pin pin.toNat).inLevel then 1 else 0)]
      else s.reply .ok [.u8 (if (s.pin pin.toNat).outLevel then 1 else 0)])

/-- GPIO.PULSE (R223): its checks, the level it drives while it holds the port, and its end at the deadline. -/
def Obligations.GpioPulse : Prop :=
  ∀ (s : State) (pin level : Byte) (width : U32),
    encode (.gpioPulse pin level width) = [0x03, pin, level, width.extractLsb' 24 8, width.extractLsb' 16 8,
      width.extractLsb' 8 8, width.extractLsb' 0 8] ∧
    exec (.gpioPulse pin level width) s = .next (
      if 1 < level.toNat ∨ width = 0 ∨ s.cfg.pulseMaxUs < width.toNat then s.reply .badarg []
      else if s.cfg.npins ≤ pin.toNat then s.reply .badarg []
      else if (s.pin pin.toNat).owner ≠ .host then s.reply .busy []
      else if (s.pin pin.toNat).dir ≠ .output then s.reply .badarg []
      else { s with
        pins := s.pins.set pin.toNat { s.pin pin.toNat with outLevel := decide (level = 1) }
        port := .held { op := .pulse pin level width, tAcc := s.now, tDl := some (s.now + width.toNat) }
        timers := { s.timers with hostDeadline := some (s.now + width.toNat) } }) ∧
    ∀ tAcc tDl, s.port = .held { op := .pulse pin level width, tAcc := tAcc, tDl := tDl } →
      fire .hostDeadline s = .next { s with
        pins := s.pins.set pin.toNat { s.pin pin.toNat with outLevel := !decide (level = 1) }
        port := .idle
        timers := { s.timers with hostDeadline := none }
        responses := s.responses ++ [{ status := .ok, results := [] }] }

/-- GPIO.WAITEDGE (R225): its checks and its hold, its completion by an event of its pin, and its timeout. While no
GPIO.WAITEDGE holds the port an event completes nothing (R214). The zero results of a refusal follow R143 (log entry 16). -/
def Obligations.GpioWaitedge : Prop :=
  ∀ (s : State) (pin : Byte) (timeout : U32),
    encode (.gpioWaitedge pin timeout) = [0x05, pin, timeout.extractLsb' 24 8, timeout.extractLsb' 16 8,
      timeout.extractLsb' 8 8, timeout.extractLsb' 0 8] ∧
    exec (.gpioWaitedge pin timeout) s = .next (
      if s.cfg.npins ≤ pin.toNat then s.reply .badarg [.u8 0, .u32 0]
      else if (s.pin pin.toNat).dir ≠ .input ∨ (s.pin pin.toNat).edgeMode = .off then s.reply .badarg [.u8 0, .u32 0]
      else { s with
        port := .held { op := .waitEdge pin timeout, tAcc := s.now, tDl := some (s.now + timeout.toNat) }
        timers := { s.timers with hostDeadline := some (s.now + timeout.toNat) } }) ∧
    ((∀ p t tAcc tDl, s.port ≠ .held { op := .waitEdge p t, tAcc := tAcc, tDl := tDl }) →
      ∀ ev : EdgeEvent, s.waitEdgeDone ev = s) ∧
    ∀ tAcc tDl, s.port = .held { op := .waitEdge pin timeout, tAcc := tAcc, tDl := tDl } →
      (∀ ev : EdgeEvent, s.waitEdgeDone ev =
        if ev.pin = pin then { s with
          port := .idle
          timers := { s.timers with hostDeadline := none }
          responses := s.responses ++
            [{ status := .ok, results := [.u8 (if ev.level then 1 else 0), .u32 ev.ts] }] }
        else s) ∧
      fire .hostDeadline s = .next { s with
        port := .idle
        timers := { s.timers with hostDeadline := none }
        responses := s.responses ++ [{ status := .timeout, results := [.u8 0, .u32 0] }] }

/-- ENV.PIN (R210): what it ignores, the level it records, and the event it dispatches when the pin's edge mode matches
(R211), stamped with the time in `TS_WIDTH` bits, which is `ts32(now)` at the default width (R212; another width is log
entry 3); and the dispatch of an event (R214, R611): first the owner's handler, then a
waiting GPIO.WAITEDGE, then the subscription, which the first two cannot change. -/
def Obligations.EnvPin : Prop :=
  (∀ (s : State) (p l : Byte),
    encode (.envPin p l) = [0xF0, p, l] ∧
    exec (.envPin p l) s = .next (
      if s.cfg.npins ≤ p.toNat ∨ 1 < l.toNat then s
      else if (s.pin p.toNat).dir = .output then s
      else if decide (l = 1) = (s.pin p.toNat).inLevel then s
      else
        let s' : State := { s with pins := s.pins.set p.toNat { s.pin p.toNat with inLevel := decide (l = 1) } }
        if (s.pin p.toNat).edgeMode = .both ∨ ((s.pin p.toNat).edgeMode = .rising ∧ l = 1) ∨
            ((s.pin p.toNat).edgeMode = .falling ∧ l = 0)
        then s'.dispatch { pin := p, level := decide (l = 1), ts := BitVec.ofNat 32 (s.now % 2 ^ s.cfg.tsWidth) }
        else s')) ∧
  ∀ (s : State) (ev : EdgeEvent),
    (s.ownerHandler ev =
      match (s.pin ev.pin.toNat).owner with
      | .temp => { s with temp :=
          if ev.level then { s.temp with lastRise := some ev.ts } else s.temp.fall s.cfg ev.ts }
      | .range => s.echoEdge ev.level ev.ts
      | .flow => s.flowEdge ev.ts
      | .btn => s
      | .pwm => s
      | .host => s) ∧
    s.dispatch ev =
      if (s.pin ev.pin.toNat).hostSub then
        ((s.ownerHandler ev).waitEdgeDone ev).emit
          { kind := .edge, a := ev.pin.setWidth 32, b := if ev.level then 1 else 0, c := ev.ts }
      else (s.ownerHandler ev).waitEdgeDone ev

/-! ### Clock (R230 to R233, R470) -/

/-- CLK.NOW (R230), SW.START (R231) and SW.STOP (R232). The time read has `TS_WIDTH` bits: `ts32(now)` at the default width;
another width is log entry 3. -/
def Obligations.ClockCommands : Prop :=
  ∀ s : State,
    encode .clkNow = [0x10] ∧
    exec .clkNow s = .next (s.reply .ok [.u32 (BitVec.ofNat 32 (s.now % 2 ^ s.cfg.tsWidth))]) ∧
    encode .swStart = [0x11] ∧
    exec .swStart s = .next (State.reply { s with clk := { s.clk with swStart := s.now, swRunning := true } } .ok []) ∧
    encode .swStop = [0x12] ∧
    exec .swStop s = .next (
      if s.clk.swRunning then State.reply { s with clk := { s.clk with swStop := s.now, swRunning := false } } .ok []
      else s.reply .ok [])

/-- SW.ELAPSED (R233): the elapsed time mod 2^32, as a difference of natural numbers, in every state in which the
stopwatch started no later than it stopped and not in the future. -/
def Obligations.StopwatchElapsed : Prop :=
  ∀ s : State, s.ClockLegal → encode .swElapsed = [0x13] ∧
    exec .swElapsed s = .next (s.reply .ok [.u32 (BitVec.ofNat 32
      (if s.clk.swRunning then s.now - s.clk.swStart else s.clk.swStop - s.clk.swStart))])

/-- ENV.TIME (R470): admissible exactly when it is later than now, no timed action is enabled, and it passes no pending
due time; then `now` changes and nothing else; otherwise nothing changes. -/
def Obligations.EnvTime : Prop :=
  ∀ (s : State) (t : U64),
    encode (.envTime t) = 0xF1 :: bytes64 t ∧
    ((s.now < t.toNat ∧ ∀ a due, s.timers.get a = some due → s.now < due ∧ t.toNat ≤ due) →
      exec (.envTime t) s = .next { s with now := t.toNat }) ∧
    (¬(s.now < t.toNat ∧ ∀ a due, s.timers.get a = some due → s.now < due ∧ t.toNat ≤ due) →
      exec (.envTime t) s = .next s)

/-- `now` never decreases, and a step changes it only by taking an ENV.TIME frame, which changes nothing else (R30,
R470). -/
def Obligations.TimeChangesOnlyByEnvTime : Prop :=
  ∀ s t : State, step s = .next t → t.now = s.now ∨
    (s.nextPick.1 = .env ∧ ∃ (x : U64) (rest : List Frame), s.outside.envIn = encode (.envTime x) :: rest ∧
      s.now < x.toNat ∧
      t = { s with now := x.toNat, outside := { s.nextPick.2.outside with envIn := rest } })

/-! ### ADC (R250 to R261) -/

/-- ADC.OPEN (R260) and the probe (R259): BUSY while a conversion is in flight; else the Config pointer write and, after an
ACK, the two-byte read, each answered by the environment (R104), decide the presence. That an answer is the scripted one,
else a free value of the draw counter, is the model's choice (log entry 7). That no read follows a NACKed pointer write is the model's reading (log entry 12). -/
def Obligations.AdcOpen : Prop :=
  (∀ o : Outside,
    (∀ a rest, o.acks = a :: rest → o.nextAck = (a, { o with acks := rest })) ∧
    (o.acks = [] → o.nextAck = (Config.freeAck o.drawn, { o with drawn := o.drawn + 1 })) ∧
    (∀ r rest, o.reads = r :: rest → o.nextRead = (r, { o with reads := rest })) ∧
    (o.reads = [] → o.nextRead = (Config.freeRead o.drawn, { o with drawn := o.drawn + 1 }))) ∧
  ∀ s : State,
    encode .adcOpen = [0x20] ∧
    exec .adcOpen s = .next (
      match s.adc.phase with
      | .converting _ _ _ => s.reply .busy []
      | .idle =>
        let w := s.outside.nextAck
        if w.1 = false then
          State.reply { s with
            adc := { s.adc with presence := .absent }
            outside := w.2
            bus := s.bus ++ [.write s.cfg.adcAddr [0x01] false] } .absent []
        else
          let r := w.2.nextRead
          State.reply { s with
            adc := { s.adc with presence := if r.1.isSome then .present else .absent }
            outside := r.2
            bus := s.bus ++ [.write s.cfg.adcAddr [0x01] true, .read s.cfg.adcAddr 2 r.1] }
            (if r.1.isSome then .ok else .absent) [])

/-- The Config word that starts a conversion (R251), with the four words of the default gain and rate. -/
def Obligations.AdcConfigWord : Prop :=
  ∀ (c : Config) (ch : BitVec 2),
    (adcConfigWord c ch).toNat =
      (1 <<< 15) ||| ((4 + ch.toNat) <<< 12) ||| (c.adcPga.toNat <<< 9) ||| (1 <<< 8) ||| (c.adcDr.toNat <<< 5) |||
        0b00011 ∧
    (c.adcPga = 0b001 → c.adcDr = 0b100 →
      adcConfigWord c 0 = 0xC383 ∧ adcConfigWord c 1 = 0xD383 ∧ adcConfigWord c 2 = 0xE383 ∧
        adcConfigWord c 3 = 0xF383)

/-- ADC.GETVOLTAGE (R261, R257) and PRESS.GETBAR (R395): BADARG and ABSENT without bus traffic; a request that starts now
writes the Config word and, after an ACK, polls later, or finishes at once with IOERR after a NACK; a request behind a
conversion joins the queue (R258). In every state whose queue is empty while no conversion is in flight. -/
def Obligations.ConversionCommands : Prop :=
  ∀ (s : State) (ch : Byte), s.AdcSound →
    encode (.adcGetvoltage ch) = [0x21, ch] ∧
    encode .pressGetbar = [0x72] ∧
    (3 < ch.toNat → exec (.adcGetvoltage ch) s = .next (s.reply .badarg [.real 0])) ∧
    (ch.toNat ≤ 3 → s.adc.presence = .absent → exec (.adcGetvoltage ch) s = .next (s.reply .absent [.real 0])) ∧
    (s.adc.presence = .absent → exec .pressGetbar s = .next (s.reply .absent [.real (barOfVolts s.cfg.realFmt 0)])) ∧
    (s.adc.presence ≠ .absent →
      ∀ i op n req failed, ((i = .adcGetvoltage ch ∧ ch.toNat ≤ 3 ∧ op = HeldOp.getVoltage ch ∧ n = ch.setWidth 2 ∧
          req = AdcReq.host ∧ failed = (0 : Real64)) ∨
        (i = .pressGetbar ∧ op = .getBar ∧ n = s.cfg.pressAdcCh ∧ req = .press ∧
          failed = barOfVolts s.cfg.realFmt 0)) →
      exec i s = .next (
        match s.adc.phase with
        | .converting _ _ _ => { s with
            port := .held { op := op, tAcc := s.now, tDl := none }
            adc := { s.adc with queue := s.adc.queue ++ [(n, req)] } }
        | .idle =>
          let w := s.outside.nextAck
          let frame := [0x01, (adcConfigWord s.cfg n).extractLsb' 8 8, (adcConfigWord s.cfg n).extractLsb' 0 8]
          if w.1 then { s with
            port := .held { op := op, tAcc := s.now, tDl := none }
            adc := { s.adc with phase := .converting n req s.now, queue := [] }
            timers := { s.timers with adcPoll := some (s.now + s.cfg.adcPollUs) }
            outside := w.2
            bus := s.bus ++ [.write s.cfg.adcAddr frame true] }
          else { s with
            port := .idle
            adc := { s.adc with phase := .idle, queue := [] }
            timers := { s.timers with hostDeadline := none }
            outside := w.2
            bus := s.bus ++ [.write s.cfg.adcAddr frame false]
            responses := s.responses ++ [{ status := .ioerr, results := [.real failed] }] }))

/-- One poll of the conversion in flight (R255, R252): IOERR on any NACK; when bit 7 of the first Config byte reads 1, the two
bytes of the Conversion register are read and decoded, the high byte first (R101, R105); else IOERR after ADC_TIMEOUT_US,
or another poll. At its end the phase is IDLE and the result goes to the requester (R261, R395, R397); then, in the same
step, the first waiting request starts (R258): after an ACK of its Config write it is in flight and its first poll is
scheduled; after a NACK it finishes with IOERR and 0.0 in its turn, which starts the one behind it. -/
def Obligations.AdcPoll : Prop :=
  (∀ (s : State) (ch : BitVec 2) (req : AdcReq) (t0 : Nat), s.adc.phase = .converting ch req t0 →
    fire .adcPoll s = .next (
      let w := s.outside.nextAck
      let s1 : State := { s with outside := w.2, bus := s.bus ++ [.write s.cfg.adcAddr [0x01] w.1] }
      if w.1 = false then s1.finish req .ioerr 0
      else
        let r := w.2.nextRead
        let s2 : State := { s1 with outside := r.2, bus := s1.bus ++ [.read s.cfg.adcAddr 2 r.1] }
        match r.1 with
        | none => s2.finish req .ioerr 0
        | some (high, _) =>
          if high.getLsbD 7 then
            let w' := r.2.nextAck
            let s3 : State := { s2 with outside := w'.2, bus := s2.bus ++ [.write s.cfg.adcAddr [0x00] w'.1] }
            if w'.1 = false then s3.finish req .ioerr 0
            else
              let r' := w'.2.nextRead
              let s4 : State := { s3 with outside := r'.2, bus := s3.bus ++ [.read s.cfg.adcAddr 2 r'.1] }
              match r'.1 with
              | none => s4.finish req .ioerr 0
              | some (high, low) => s4.finish req .ok (volts s.cfg (high ++ low))
          else if s.cfg.adcTimeoutUs ≤ s.now - t0 then s2.finish req .ioerr 0
          else { s2 with timers := { s2.timers with adcPoll := some (s.now + s.cfg.adcPollUs) } })) ∧
  ∀ (s given : State) (done : AdcReq) (st : Status) (v : Real64),
    given = (match done with
      | .host => { s with
          adc := { s.adc with phase := .idle }
          port := .idle
          timers := { s.timers with hostDeadline := none }
          responses := s.responses ++ [{ status := st, results := [.real v] }] }
      | .press => { s with
          adc := { s.adc with phase := .idle }
          port := .idle
          timers := { s.timers with hostDeadline := none }
          responses := s.responses ++ [{ status := st, results := [.real (barOfVolts s.cfg.realFmt v)] }] }
      | .btn => State.applyMask { s with
          adc := { s.adc with phase := .idle }
          btn := { s.btn with polling := false } } (ladder s.cfg.ladderTable v)) →
    (s.adc.queue = [] → s.finish done st v = given) ∧
    (∀ ch req rest frame, s.adc.queue = (ch, req) :: rest →
      frame = [0x01, (adcConfigWord s.cfg ch).extractLsb' 8 8, (adcConfigWord s.cfg ch).extractLsb' 0 8] →
      (s.outside.nextAck.1 = true → s.finish done st v = { given with
        adc := { s.adc with phase := .converting ch req s.now, queue := rest }
        timers := { given.timers with adcPoll := some (s.now + s.cfg.adcPollUs) }
        outside := s.outside.nextAck.2
        bus := s.bus ++ [.write s.cfg.adcAddr frame true] }) ∧
      (s.outside.nextAck.1 = false → s.finish done st v = State.finish { given with
        adc := { s.adc with phase := .idle, queue := rest }
        outside := s.outside.nextAck.2
        bus := s.bus ++ [.write s.cfg.adcAddr frame false] } req .ioerr 0))

/-- The voltages (R253, R256), in every REAL_FMT: the full scale of each gain code; the voltage of a Conversion register, its
signed value times FS_VOLTS over FS_COUNTS, exact and rounded once (that the signed value is not itself rounded to a narrow
REAL_FMT is the model's choice, log entry 29); a larger register never gives a smaller voltage; every one is finite with an
FS_COUNTS of at least 32768, or in binary64; and with the default FS_COUNTS of 32768 the least register value 0x8000 gives
exactly -FS_VOLTS. -/
def Obligations.VoltsOrdered : Prop :=
  ∀ (c : Config) (a b : BitVec 16), c.realFmt.legal = true → 0 < c.fsCounts →
    ([0, 1, 2, 3, 4, 5, 6, 7] : List (BitVec 3)).map (fsVolts c.realFmt) =
      ([6144, 4096, 2048, 1024, 512, 256, 256, 256] : List Rat).map (fun mv => roundRat c.realFmt (mv / 1000)) ∧
    volts c a = roundRat c.realFmt ((a.toInt : Rat) * realRat (fsVolts c.realFmt c.adcPga) / (c.fsCounts : Rat)) ∧
    (32768 ≤ c.fsCounts ∨ c.realFmt = .binary64 → realFinite (volts c a) = true) ∧
    (a.toInt ≤ b.toInt → realLe (volts c a) (volts c b) = true) ∧
    (c.fsCounts = 32768 → realRat (volts c 0x8000) = -realRat (fsVolts c.realFmt c.adcPga))

/-! ### PWM (R280 to R289) -/

/-- PWM.SETVALUE (R282), PWM.SETRANGE (R283), PWM.SETDIVISOR (R284), PWM.ENABLE (R285), PWM.DISABLE (R286) and PWM.GET
(R287). What `frac` and `value` become is `PwmValue`'s. That the clamped operand is rounded to REAL_FMT before its product is
taken is the model's reading of R13 (log entry 27). -/
def Obligations.PwmCommands : Prop :=
  ∀ (s : State) (x : Real64) (n : U32),
    let frac := toFormat s.cfg.realFmt (clamp x 0 0x3FF0000000000000)
    encode (.pwmSetvalue x) = 0x30 :: bytes64 x ∧
    exec (.pwmSetvalue x) s = .next (
      if realFinite x = false then s.reply .badarg []
      else if s.reg.state = .running then s.reply .busy []
      else State.reply { s with pwm := { s.pwm with frac := frac, value := onTicks frac s.pwm.range } } .ok []) ∧
    encode (.pwmSetrange n) = 0x31 :: bytes32 n ∧
    exec (.pwmSetrange n) s = .next (
      if n = 0 then s.reply .badarg []
      else State.reply { s with pwm := { s.pwm with range := n, value := onTicks s.pwm.frac n } } .ok []) ∧
    encode (.pwmSetdivisor n) = 0x32 :: bytes32 n ∧
    exec (.pwmSetdivisor n) s = .next (
      if n = 0 ∨ s.cfg.pwmDivMax < n.toNat then s.reply .badarg []
      else State.reply { s with pwm := { s.pwm with divisor := n } } .ok []) ∧
    encode .pwmEnable = [0x33] ∧
    exec .pwmEnable s = .next (State.reply { s with pwm := { s.pwm with enabled := true } } .ok []) ∧
    encode .pwmDisable = [0x34] ∧
    exec .pwmDisable s = .next (State.reply { s with pwm := { s.pwm with enabled := false } } .ok []) ∧
    encode .pwmGet = [0x35] ∧
    exec .pwmGet s = .next (s.reply .ok
      [.u32 s.pwm.divisor, .u32 s.pwm.range, .u32 s.pwm.value, .u8 (if s.pwm.enabled then 1 else 0)])

/-- `pwmset(x)` (R281), in every REAL_FMT: `frac` is `x` clamped to [0, 1] and rounded once, in binary64 `x` itself where it
lies there (that the product takes the rounded one is the model's reading, log entry 27), `value` the exact
product of `frac` and `range` truncated, so that `value` lies in [0, range]; and a range change keeps the commanded fraction (R283). The output (R280, R288): the frequency
and the duty; the waveform repeats every `divisor × range` cycles, is low when disabled or at value 0, high at value =
range, and else high for exactly the first `value × divisor` cycles, counted from a period's start (log entry 22), whose
share of the period is the duty. -/
def Obligations.PwmValue : Prop :=
  (∀ s : State, s.PwmLegal → ∀ period high : Nat, period = s.pwm.divisor.toNat * s.pwm.range.toNat →
    high = s.pwm.value.toNat * s.pwm.divisor.toNat →
    s.pwmFrequency = (s.cfg.pwmClockHz : Rat) / period ∧ s.pwmDuty = (s.pwm.value.toNat : Rat) / s.pwm.range.toNat ∧
    s.pwmDuty = (high : Rat) / period ∧
    (∀ k, s.pwmHigh (k + period) = s.pwmHigh k) ∧
    ((s.pwm.enabled = false ∨ s.pwm.value = 0) → ∀ k, s.pwmHigh k = false) ∧
    (s.pwm.enabled = true → s.pwm.value = s.pwm.range → ∀ k, s.pwmHigh k = true) ∧
    (s.pwm.enabled = true → ∀ k < period, s.pwmHigh k = decide (k < high)) ∧
    (s.pwm.enabled = true → (List.range period).countP (fun k => s.pwmHigh k) = high)) ∧
  ∀ (s : State) (x : Real64), s.cfg.realFmt.legal = true → realFinite x = true →
    (realRat x ≤ 0 → realRat (s.pwmSet x).pwm.frac = 0) ∧
    (0 ≤ realRat x → realRat x ≤ 1 →
      realRat (s.pwmSet x).pwm.frac = realRat (roundRat s.cfg.realFmt (realRat x)) ∧
      (s.cfg.realFmt = .binary64 → realRat (s.pwmSet x).pwm.frac = realRat x)) ∧
    (1 ≤ realRat x → realRat (s.pwmSet x).pwm.frac = 1) ∧
    ((s.pwmSet x).pwm.value.toNat : Int) = (realRat (s.pwmSet x).pwm.frac * s.pwm.range.toNat).floor ∧
    (s.pwmSet x).pwm.value.toNat ≤ s.pwm.range.toNat ∧
    (s.pwmSet x).pwm.divisor = s.pwm.divisor ∧ (s.pwmSet x).pwm.range = s.pwm.range ∧
    (s.pwmSet x).pwm.enabled = s.pwm.enabled ∧
    ∀ n : U32, (onTicks (s.pwmSet x).pwm.frac n).toNat ≤ n.toNat ∧
      ((onTicks (s.pwmSet x).pwm.frac n).toNat : Int) = (realRat (s.pwmSet x).pwm.frac * n.toNat).floor

/-! ### Reads (R110) -/

/-- The commands that read several fields, or one, return them all from one state and write nothing (R110): TEMP.GET
(R320), TEMP.DIAG (R321), RANGE.GET (R348), FLOW.GETCOUNT (R372), FLOW.STATUS (R375), BTN.GETMASK (R396), PID.READ (R415),
REG.READ (R441), REG.STATUS (R442) and NTF.STATUS (R466); and so does BTN.GET, for a button that exists (R394). The zero
result of a refused BTN.GET follows R143 and is the model's choice against V-B4 (log entry 16). -/
def Obligations.SnapshotReads : Prop :=
  ∀ (s : State) (index : Byte),
    (encode (.btnGet index) = [0x70, index] ∧ exec (.btnGet index) s = .next (
      if s.cfg.nbtn ≤ index.toNat then s.reply .badarg [.u8 0]
      else s.reply .ok [.u8 (if s.btn.mask.getLsbD index.toNat then 1 else 0)])) ∧
    (encode .tempGet = [0x40] ∧ exec .tempGet s = .next (s.reply .ok
      [.real s.temp.sample.value, .u8 (if s.temp.sample.valid then 1 else 0), .u32 s.temp.sample.ts])) ∧
    (encode .tempDiag = [0x41] ∧ exec .tempDiag s = .next (s.reply .ok
      [.u32 s.temp.frames, .u32 s.temp.parityErr, .u32 s.temp.prefixErr, .u32 s.temp.rangeErr, .u32 s.temp.syncErr])) ∧
    (encode .rangeGet = [0x51] ∧ exec .rangeGet s = .next (s.reply .ok
      [.real s.range.filtered, .u8 (if s.range.valid then 1 else 0), .u32 s.range.count])) ∧
    (encode .flowGetcount = [0x60] ∧ exec .flowGetcount s = .next (s.reply .ok [.u32 s.flow.count])) ∧
    (encode .flowStatus = [0x63] ∧ exec .flowStatus s = .next (s.reply .ok
      [.u8 (if s.flow.flowing then 1 else 0), .u8 (if s.flow.armed then 1 else 0), .u32 s.flow.target])) ∧
    (encode .btnGetmask = [0x71] ∧ exec .btnGetmask s = .next (s.reply .ok [.u32 s.btn.mask])) ∧
    (encode .pidRead = [0x83] ∧ exec .pidRead s = .next (s.reply .ok
      [.real s.pid.pGain, .real s.pid.iGain, .real s.pid.dGain, .real s.pid.iMin, .real s.pid.iMax,
        .real s.pid.integrator, .real s.pid.lastPosition])) ∧
    (encode .regRead = [0x95] ∧ exec .regRead s = .next (s.reply .ok
      [.real s.reg.latestTemp, .real s.reg.latestDrive])) ∧
    (encode .regStatus = [0x96] ∧ exec .regStatus s = .next (s.reply .ok
      [.u8 (if s.reg.state = .running then 1 else 0), .u8 (if s.reg.fault then 1 else 0),
        .u8 (if s.reg.power then 1 else 0), .real s.reg.target, .real s.reg.timeStep])) ∧
    (encode .ntfStatus = [0xA2] ∧ exec .ntfStatus s = .next (s.reply .ok
      [.u8 (BitVec.ofNat 8 s.ntf.queue.length), .u32 s.ntf.dropped, .u8 s.ntf.enable]))

/-! ### Temperature decoder (R310 to R319) -/

/-- The edge handlers of the decoder (R311, R312, R313): a rise is remembered; a fall classifies the pulse it ends, by
exact integer comparison, as a SYNC that restarts the frame (an error only when bits were pending) or as a bit shifted in
MSB first, the TEMP_FRAME_BITS-th of which decodes the frame. A duration is taken mod 2^TS_WIDTH, which is mod 2^32 at the
default width; another width is log entry 3. -/
def Obligations.TempEdges : Prop :=
  ∀ (s : State) (ts : U32),
    s.tempEdge true ts = { s with temp := { s.temp with lastRise := some ts } } ∧
    (∀ d : Nat, (s.temp.lastRise = none ∧ d = s.cfg.tBitUs) ∨ (∃ r, s.temp.lastRise = some r ∧ d = (ts - r).toNat % 2 ^ s.cfg.tsWidth) →
      (s.cfg.tBitUs ≤ d →
        s.tempEdge false ts = { s with temp := { s.temp with
          lastRise := none, bitCount := 0, word := 0
          syncErr := if 0 < s.temp.bitCount then s.temp.syncErr + 1 else s.temp.syncErr } }) ∧
      (d < s.cfg.tBitUs →
        ∀ w : U32, w.toNat = (2 * s.temp.word.toNat + if 2 * d < s.cfg.tBitUs then 1 else 0) % 2 ^ s.cfg.tempFrameBits →
        s.tempEdge false ts = { s with temp :=
          if s.temp.bitCount + 1 = s.cfg.tempFrameBits then { (s.temp.decodeFrame s.cfg w ts) with
            lastRise := none, bitCount := 0, word := 0 }
          else { s.temp with lastRise := none, bitCount := s.temp.bitCount + 1, word := w } }))

/-- The decoding of a frame of 20 bits, the one length whose layout the spec gives (R153, R314 to R319): the first check that
fails rejects it, counts its error and clears `valid` alone; a frame that passes them all becomes the sample. Each 9-bit
packet must have an even number of set bits. That the raw value is not itself rounded to a REAL_FMT of fewer than 11 bits is
the model's choice (log entry 29). -/
def Obligations.TempDecodeFrame : Prop :=
  ∀ (c : Config) (t : Temp) (w ts : U32) (value : Real64) (even0 even1 prefixZero inRange : Bool), c.tempFrameBits = 20 →
    even0 = decide ((List.range 9).countP (fun i => w.getLsbD (10 + i)) % 2 = 0) →
    even1 = decide ((List.range 9).countP (fun i => w.getLsbD i) % 2 = 0) →
    prefixZero = decide (w.toNat / 2 ^ 14 % 2 ^ 5 = 0) →
    value = roundRat c.realFmt (realRat c.minTemp +
      ((w.toNat / 2 ^ 11 % 2 ^ 3 * 2 ^ 8 + w.toNat / 2 % 2 ^ 8 : Nat) : Rat) *
        (realRat c.maxTemp - realRat c.minTemp) / 2047) →
    inRange = (realLe c.minTemp value && realLe value c.maxTemp) →
    t.decodeFrame c w ts =
      if (even0 && even1) = false then
        { t with frames := t.frames + 1, parityErr := t.parityErr + 1, sample := { t.sample with valid := false } }
      else if prefixZero = false then
        { t with frames := t.frames + 1, prefixErr := t.prefixErr + 1, sample := { t.sample with valid := false } }
      else if inRange = false then
        { t with frames := t.frames + 1, rangeErr := t.rangeErr + 1, sample := { t.sample with valid := false } }
      else { t with frames := t.frames + 1, sample := { value := value, valid := true, ts := ts } }

/-- As many bit pulses as a frame has bits (20 by default), after a sync, give the frame word of their bits, first bit first,
and decode it once, at the last fall (R153, R154, R310, R313): whatever the times of their edges, as long as each is shorter
than the bit period. Durations at another TS_WIDTH than 32 are log entry 3. -/
def Obligations.TempFrameAssembled : Prop :=
  ∀ (c : Config) (t : Temp) (first : List (U32 × U32)) (last : U32 × U32), t.bitCount = 0 → t.word = 0 →
    first.length + 1 = c.tempFrameBits → c.tempFrameBits ≤ 32 →
    (∀ p ∈ first ++ [last], (p.2 - p.1).toNat % 2 ^ c.tsWidth < c.tBitUs) →
    (first ++ [last]).foldl (fun t p => (t.rise p.1).fall c p.2) t =
      { (t.decodeFrame c (BitVec.ofNat 32 ((first ++ [last]).foldl
          (fun n p => 2 * n + if 2 * ((p.2 - p.1).toNat % 2 ^ c.tsWidth) < c.tBitUs then 1 else 0) 0))
          last.2) with
        lastRise := none, bitCount := 0, word := 0 }

/-- The range check always passes, in every REAL_FMT (R317, R318): every scaled temperature lies in [MIN_TEMP, MAX_TEMP], raw 0
is MIN_TEMP and raw 2047 is MAX_TEMP, and so no frame ever counts a range error. That the raw value is scaled exactly in every
format is the model's choice (log entry 29). -/
def Obligations.TempAlwaysInRange : Prop :=
  ∀ (c : Config) (raw : BitVec 11) (t : Temp) (w ts : U32), c.wellFormed = true →
    realLe c.minTemp (scaleTemp c raw) = true ∧ realLe (scaleTemp c raw) c.maxTemp = true ∧
    realRat (scaleTemp c 0) = realRat c.minTemp ∧ realRat (scaleTemp c 2047) = realRat c.maxTemp ∧
    (t.decodeFrame c w ts).rangeErr = t.rangeErr

/-! ### Range finder (R340 to R351) -/

/-- RANGE.MEASURE and RANGE.READY as they are accepted (R347, R349), their measurement scheduled at `now`, or no earlier
than MIN_TRIGGER_INTERVAL_US after the last trigger (R346); the deadline of a READY, which in BACKGROUND mode ends its hold
with TIMEOUT and no result (R349, R40); and RANGE.SETSPEED (R350): the operand is checked as it is given and stored rounded to
REAL_FMT (R13). What is stored of one beyond the finite values of REAL_FMT is free, the model's choice (log entry 27). -/
def Obligations.RangeCommands : Prop :=
  ∀ (s : State) (c : Real64) (start : Nat),
    start = (match s.range.lastTrigger with | none => s.now | some t => max s.now (t + s.cfg.minTriggerIntervalUs)) →
    encode .rangeMeasure = [0x50] ∧
    exec .rangeMeasure s = .next (
      if s.cfg.rangeMode = .background then s.reply .busy [.real 0]
      else { s with
        port := .held { op := .measure, tAcc := s.now, tDl := none }
        timers := { s.timers with rangeHostTrig := some start } }) ∧
    encode .rangeReady = [0x52] ∧
    exec .rangeReady s = .next (
      if s.range.valid then s.reply .ok []
      else if s.cfg.rangeMode = .background then { s with
        port := .held { op := .ready, tAcc := s.now, tDl := some (s.now + s.cfg.readyTimeoutUs) }
        timers := { s.timers with hostDeadline := some (s.now + s.cfg.readyTimeoutUs) } }
      else { s with
        port := .held { op := .ready, tAcc := s.now, tDl := none }
        timers := { s.timers with rangeHostTrig := some start } }) ∧
    (∀ tAcc tDl, s.port = .held { op := .ready, tAcc := tAcc, tDl := tDl } →
      fire .hostDeadline s = .next { s with
        port := .idle
        timers := { s.timers with hostDeadline := none }
        responses := s.responses ++ [{ status := .timeout, results := [] }] }) ∧
    encode (.rangeSetspeed c) = 0x53 :: bytes64 c ∧
    ∃ stored : Real64, (realFinite c = true → s.Stores c stored) ∧
      exec (.rangeSetspeed c) s = .next (
        if realFinite c = false ∨ realRat c ≤ 0 then s.reply .badarg []
        else State.reply { s with range := { s.range with speed := stored } } .ok [])

/-- The steps of one measurement (R341, R343, R344, R351): its start for the sampler or the host raises TRIG for TRIG_US,
the trigger's end waits for the echo's rise, the rise for its fall, each with its own timeout; an edge that no phase waits
for is ignored; a fall ends the measurement with the distance, the exact product of the width, the
speed and 1/2 000 000 rounded once (R342; that the width is not itself rounded to a narrow REAL_FMT is the model's choice, log
entry 29); a timeout ends it with 0.0. The width is taken mod 2^TS_WIDTH, which is mod 2^32 at the default width; another
width is log entry 3. -/
def Obligations.MeasurementSteps : Prop :=
  ∀ (s : State) (level : Bool) (ts : U32),
    (realFinite s.range.speed = true → realSign s.range.speed = false →
      distance s.cfg.realFmt s.range.speed ts = roundRat s.cfg.realFmt ((ts.toNat : Rat) * realRat s.range.speed / 2000000)) ∧
    (∀ a, (a = .rangeSample ∨ a = .rangeRetry ∨ a = .rangeHostTrig) →
      fire a s = .next { s with
        range := { s.range with
          attempt := if a = .rangeSample then .first else s.range.attempt
          req := if a = .rangeHostTrig then .host else .sampler
          phase := .trig
          lastTrigger := some s.now }
        pins := s.pins.set s.cfg.pinTrig { s.pin s.cfg.pinTrig with outLevel := true }
        timers := { s.timers with rangeTrigEnd := some (s.now + s.cfg.trigUs) } }) ∧
    fire .rangeTrigEnd s = .next { s with
      range := { s.range with tTrigEnd := s.now, phase := .waitRise }
      pins := s.pins.set s.cfg.pinTrig { s.pin s.cfg.pinTrig with outLevel := false }
      timers := { s.timers with rangeEchoTimeout := some (s.now + s.cfg.echoTimeoutUs) } } ∧
    fire .rangeEchoTimeout s = .next (s.measureDone 0 true) ∧
    s.echoEdge level ts =
      if s.range.phase = .waitRise ∧ level = true then { s with
        range := { s.range with rise := ts, phase := .waitFall }
        timers := { s.timers with rangeEchoTimeout := some (s.now + s.cfg.echoTimeoutUs) } }
      else if s.range.phase = .waitFall ∧ level = false then
        State.measureDone { s with timers := { s.timers with rangeEchoTimeout := none } }
          (distance s.cfg.realFmt s.range.speed (BitVec.ofNat 32 ((ts - s.range.rise).toNat % 2 ^ s.cfg.tsWidth))) false
      else s

/-- What the end of a host measurement does (R347, R349): a MEASURE replies the distance, published unsmoothed, or TIMEOUT
with 0.0 and nothing published; a READY replies OK, or measures again until READY_TIMEOUT_US have passed. -/
def Obligations.HostMeasurementEnds : Prop :=
  ∀ (s : State) (r : Real64) (tAcc : Nat) (tDl : Option Nat) (start : Nat), s.range.req = .host →
    start = (match s.range.lastTrigger with | none => s.now | some t => max s.now (t + s.cfg.minTriggerIntervalUs)) →
    (s.port = .held { op := .measure, tAcc := tAcc, tDl := tDl } →
      s.measureDone r false = { s with
        range := { s.range with phase := .idle, filtered := r, count := s.range.count + 1, valid := true }
        port := .idle
        timers := { s.timers with hostDeadline := none }
        responses := s.responses ++ [{ status := .ok, results := [.real r] }] } ∧
      s.measureDone r true = { s with
        range := { s.range with phase := .idle }
        port := .idle
        timers := { s.timers with hostDeadline := none }
        responses := s.responses ++ [{ status := .timeout, results := [.real 0] }] }) ∧
    (s.port = .held { op := .ready, tAcc := tAcc, tDl := tDl } →
      s.measureDone r false = { s with
        range := { s.range with phase := .idle, filtered := r, count := s.range.count + 1, valid := true }
        port := .idle
        timers := { s.timers with hostDeadline := none }
        responses := s.responses ++ [{ status := .ok, results := [] }] } ∧
      s.measureDone r true =
        if s.cfg.readyTimeoutUs ≤ s.now - tAcc then { s with
          range := { s.range with phase := .idle }
          port := .idle
          timers := { s.timers with hostDeadline := none }
          responses := s.responses ++ [{ status := .timeout, results := [] }] }
        else { s with
          range := { s.range with phase := .idle }
          timers := { s.timers with rangeHostTrig := some start } })

/-- The sampler's gate and smoothing (R345, R344, R346): the first sample is taken as it is and completes a waiting READY;
a first attempt further than GATE_M from `filtered`, by exact comparison, is retried; any other is smoothed, exactly and
rounded once. Then the next start is scheduled. -/
def Obligations.SamplerGate : Prop :=
  ∀ (s : State) (r : Real64) (b : Bool) (start : Nat) (q : Rat), s.range.req = .sampler →
    start = (match s.range.lastTrigger with | none => s.now | some t => max s.now (t + s.cfg.minTriggerIntervalUs)) →
    realFinite r = true → realFinite s.range.filtered = true → realFinite s.cfg.gateM = true →
    realFinite s.cfg.smoothK = true →
    q = realRat s.range.filtered + realRat s.cfg.smoothK * (realRat r - realRat s.range.filtered) →
    (s.range.valid = false →
      let s' : State := { s with
        range := { s.range with phase := .idle, filtered := r, count := s.range.count + 1, valid := true } }
      s.measureDone r b =
        match s.port with
        | .held { op := .ready, .. } => { s' with
            port := .idle
            timers := { s.timers with hostDeadline := none, rangeSample := some start }
            responses := s.responses ++ [{ status := .ok, results := [] }] }
        | _ => { s' with timers := { s.timers with rangeSample := some start } }) ∧
    (s.range.valid = true → s.range.attempt = .first → realRat s.cfg.gateM < |realRat r - realRat s.range.filtered| →
      s.measureDone r b = { s with
        range := { s.range with phase := .idle, attempt := .retry }
        timers := { s.timers with rangeRetry := some start } }) ∧
    (s.range.valid = true →
      (s.range.attempt = .retry ∨ |realRat r - realRat s.range.filtered| ≤ realRat s.cfg.gateM) →
      ∃ v, (q ≠ 0 → v = roundRat s.cfg.realFmt q) ∧ (q = 0 → realZero v = true) ∧
        s.measureDone r b = { s with
          range := { s.range with phase := .idle, filtered := v, count := s.range.count + 1 }
          timers := { s.timers with rangeSample := some start } })

/-! ### Flow counter (R370 to R376) -/

/-- A flow edge (R370, R376) and the idle action (R371): the edge counts, emits Start when the flow was stopped, moves the
idle action, and on the armed target disarms and emits Target, in that order; the idle action emits Stop, stamped in
`TS_WIDTH` bits, which is `ts32(now)` at the default width; another width is log entry 3. -/
def Obligations.FlowSteps : Prop :=
  ∀ (s : State) (ts n : U32), n = s.flow.count + 1 →
    s.flowEdge ts = { s with
      flow := { s.flow with
        count := n
        lastEdge := s.now
        flowing := true
        armed := s.flow.armed && decide (n ≠ s.flow.target) }
      timers := { s.timers with flowIdle := some (s.now + s.cfg.flowIdleUs) }
      ntf :=
        let u := if s.flow.flowing then s.ntf
          else s.ntf.emit s.cfg.ntfDepth { kind := .flowStart, a := n, b := 0, c := ts }
        if s.flow.armed = true ∧ n = s.flow.target then
          u.emit s.cfg.ntfDepth { kind := .flowTarget, a := n, b := 0, c := ts }
        else u } ∧
    fire .flowIdle s = .next { s with
      flow := { s.flow with flowing := false }
      ntf := s.ntf.emit s.cfg.ntfDepth
        { kind := .flowStop, a := s.flow.count, b := 0, c := BitVec.ofNat 32 (s.now % 2 ^ s.cfg.tsWidth) } }

/-- FLOW.GETLITRES (R373) and FLOW.NOTIFYAFTER (R374), for a positive calibration: the count of edges is the exact product
rounded with halves away from zero, at least one, added to the counter mod 2^32. That the litres divide the count itself, not
rounded first to a narrow REAL_FMT, is the model's choice (log entry 29). -/
def Obligations.FlowCommands : Prop :=
  ∀ (s : State) (litres : Real64) (n : Int), s.cfg.wellFormed = true →
    n = (realRat litres * realRat s.cfg.countsPerLitre + 1 / 2).floor →
    encode .flowGetlitres = [0x61] ∧
    exec .flowGetlitres s = .next (s.reply .ok
      [.real (roundRat s.cfg.realFmt ((s.flow.count.toNat : Rat) / realRat s.cfg.countsPerLitre))]) ∧
    encode (.flowNotifyafter litres) = 0x62 :: bytes64 litres ∧
    exec (.flowNotifyafter litres) s = .next (
      if realFinite litres = false ∨ realRat litres < 0 then s.reply .badarg []
      else if 2 ^ 32 - 1 < n then s.reply .badarg []
      else State.reply { s with flow := { s.flow with
        target := s.flow.count + BitVec.ofInt 32 (max n 1)
        armed := true } } .ok [])

/-- "fires exactly one `Target` event after exactly" n further edges, "not before, not twice" (R370, R374): from an armed
counter n edges short of its target, with flow notifications enabled and room in the queue. -/
def Obligations.FlowTargetOnce : Prop :=
  ∀ (s : State) (n : U32) (edges : List U32), s.flow.armed = true → s.flow.target = s.flow.count + n → n ≠ 0 →
    s.ntf.enable.getLsbD 0 = true → s.ntf.queue.length + 2 ≤ s.cfg.ntfDepth →
    (edges.length < n.toNat →
      (edges.foldl State.flowEdge s).flow.armed = true ∧
      (edges.foldl State.flowEdge s).ntf.queue.countP (fun r => decide (r.kind = .flowTarget)) =
        s.ntf.queue.countP (fun r => decide (r.kind = .flowTarget))) ∧
    (n.toNat ≤ edges.length →
      (edges.foldl State.flowEdge s).flow.armed = false ∧
      (edges.foldl State.flowEdge s).ntf.queue.countP (fun r => decide (r.kind = .flowTarget)) =
        s.ntf.queue.countP (fun r => decide (r.kind = .flowTarget)) + 1)

/-! ### Buttons and pressure (R390 to R397) -/

/-- `apply(newMask)` (R393): every button that changes gets its last change set to now and one record, in ascending order
of index, carrying its index, its new level and the time since its last change mod 2^32; the mask is replaced whole; and
nothing else changes. -/
def Obligations.ButtonsApply : Prop :=
  ∀ (s : State) (newMask : U32), s.btn.lastChange.length = s.cfg.nbtn →
    ∃ changes : List Nat, changes.length = s.cfg.nbtn ∧
      (∀ i < s.cfg.nbtn, changes.getD i 0 =
        if newMask.getLsbD i = s.btn.mask.getLsbD i then s.btn.lastChange.getD i 0 else s.now) ∧
      s.applyMask newMask = { s with
        btn := { s.btn with mask := newMask, lastChange := changes }
        ntf := ((List.range s.cfg.nbtn).filter
            fun i => decide (newMask.getLsbD i ≠ s.btn.mask.getLsbD i)).foldl
          (fun u i => u.emit s.cfg.ntfDepth
            { kind := .button, a := BitVec.ofNat 32 i, b := if newMask.getLsbD i then 1 else 0
              c := BitVec.ofNat 32 s.now - BitVec.ofNat 32 (s.btn.lastChange.getD i 0) }) s.ntf }

/-- The ladder's classification (R392): the table entry nearest the voltage, the lowest index on a tie, if it is strictly
nearer than half the least gap between entries, else 0. (The least gap over all pairs is the least over neighbours in
sorted order.) That an infinite voltage, which only a narrow REAL_FMT can give, is no button is the model's choice (log entry
28). -/
def Obligations.LadderNearest : Prop :=
  (∀ (table : List Real64) (v : Real64), realFinite v = false → ladder table v = 0) ∧
  ∀ (table : List Real64) (v : Real64) (tol : Rat) (j : Nat), realFinite v = true →
    (∀ i k, i < k → k < table.length → 2 * tol ≤ |realRat (table.getD i 0) - realRat (table.getD k 0)|) →
    (∃ i k, i < k ∧ k < table.length ∧ 2 * tol = |realRat (table.getD i 0) - realRat (table.getD k 0)|) →
    j < table.length →
    (∀ k < table.length, |realRat v - realRat (table.getD j 0)| ≤ |realRat v - realRat (table.getD k 0)|) →
    (∀ k < j, |realRat v - realRat (table.getD j 0)| < |realRat v - realRat (table.getD k 0)|) →
    ladder table v = if |realRat v - realRat (table.getD j 0)| < tol then BitVec.ofNat 32 j else 0

/-- The button poll (R390, R259). In PINS mode a low pin is a pressed button and the mask of all buttons is applied (R391).
In LADDER mode nothing more happens with a request in flight; with an absent device the reading is 0.0 at once; else a
conversion of BTN_ADC_CH is asked for (R392, R397): behind a conversion in flight it joins the queue (R258); otherwise its
Config word is written and, after an ACK, it is in flight for the button unit with its first poll scheduled, after a NACK the
reading is 0.0 in the same step (R255). In both modes the next poll is scheduled. -/
def Obligations.ButtonPoll : Prop :=
  ∀ s : State,
    (s.cfg.wellFormed = true → s.cfg.btnMode = .pins →
      ∃ newMask : U32,
        (∀ i, newMask.getLsbD i =
          (decide (i < s.cfg.nbtn) && !(s.pin (s.cfg.pinBtn.getD i 0)).inLevel)) ∧
        fire .btnPoll s = .next { s.applyMask newMask with
          timers := { s.timers with btnPoll := some (s.now + s.cfg.btnPollUs) } }) ∧
    (s.cfg.btnMode = .ladder → s.AdcSound →
      let s' : State := { s with timers := { s.timers with btnPoll := some (s.now + s.cfg.btnPollUs) } }
      fire .btnPoll s = .next (
        if s.btn.polling then s'
        else if s.adc.presence = .absent then s'.applyMask (ladder s.cfg.ladderTable 0)
        else match s.adc.phase with
          | .converting _ _ _ => { s' with
              btn := { s.btn with polling := true }
              adc := { s.adc with queue := s.adc.queue ++ [(s.cfg.btnAdcCh, .btn)] } }
          | .idle =>
            let w := s.outside.nextAck
            let config := adcConfigWord s.cfg s.cfg.btnAdcCh
            let frame := [0x01, config.extractLsb' 8 8, config.extractLsb' 0 8]
            if w.1 then { s' with
              btn := { s.btn with polling := true }
              adc := { s.adc with phase := .converting s.cfg.btnAdcCh .btn s.now, queue := [] }
              timers := { s.timers with
                btnPoll := some (s.now + s.cfg.btnPollUs)
                adcPoll := some (s.now + s.cfg.adcPollUs) }
              outside := w.2
              bus := s.bus ++ [.write s.cfg.adcAddr frame true] }
            else State.applyMask { s' with
              adc := { s.adc with phase := .idle, queue := [] }
              outside := w.2
              bus := s.bus ++ [.write s.cfg.adcAddr frame false] } (ladder s.cfg.ladderTable 0)))

/-! ### PID (R410 to R416) -/

/-- PID.SETGAINS (R412), PID.SETLIMITS (R413) and PID.UPDATE (R414), with the update law of R411: each line is one formula
rounded once, the integrator is rounded and then clamped, the integral term uses the new integrator, and the drive is the
exact sum of the three rounded terms rounded once. A drive that is no number is some NaN (U8, log entry 8). The signs of
zeros and the infinities follow IEEE 754, which is the model's reading of R13 (log entry 4). The operands are checked and used
as they are given, and stored rounded to REAL_FMT (R13); what is stored of one beyond the finite values of REAL_FMT is free,
the model's choice (log entry 27). -/
def Obligations.PidCommands : Prop :=
  ∀ (s : State) (x y z : Real64) (f : RealFmt), f = s.cfg.realFmt → ∃ x' y' z' : Real64,
    (realFinite x = true → s.Stores x x') ∧ (realFinite y = true → s.Stores y y') ∧
    (realFinite z = true → s.Stores z z') ∧
    encode (.pidSetgains x y z) = 0x80 :: (bytes64 x ++ bytes64 y ++ bytes64 z) ∧
    exec (.pidSetgains x y z) s = .next (
      if realFinite x = false ∨ realFinite y = false ∨ realFinite z = false then s.reply .badarg []
      else State.reply { s with pid := { s.pid with pGain := x', iGain := y', dGain := z' } } .ok []) ∧
    encode (.pidSetlimits x y) = 0x81 :: (bytes64 x ++ bytes64 y) ∧
    exec (.pidSetlimits x y) s = .next (
      if realFinite x = false ∨ realFinite y = false then s.reply .badarg []
      else State.reply { s with pid := { s.pid with iMin := x', iMax := y' } } .ok []) ∧
    encode (.pidUpdate x y) = 0x82 :: (bytes64 x ++ bytes64 y) ∧
    ((realFinite x = false ∨ realFinite y = false) → exec (.pidUpdate x y) s = .next (s.reply .badarg [.real 0])) ∧
    (realFinite x = true → realFinite y = true → s.reg.state = .running →
      exec (.pidUpdate x y) s = .next (s.reply .busy [.real 0])) ∧
    (realFinite x = true → realFinite y = true → s.reg.state = .stopped →
      ∀ (pTerm integrator iTerm dTerm : Real64) (drive : Machine.Num),
        pTerm = ((realNum s.pid.pGain).mul (realNum x)).round f →
        integrator = clamp (((realNum s.pid.integrator).add (realNum x)).round f) s.pid.iMin s.pid.iMax →
        iTerm = ((realNum s.pid.iGain).mul (realNum integrator)).round f →
        dTerm = ((realNum s.pid.dGain).mul ((realNum s.pid.lastPosition).sub (realNum y))).round f →
        drive = ((realNum pTerm).add (realNum iTerm)).add (realNum dTerm) →
        ∃ (v : Real64) (o : Outside), (drive ≠ .nan → v = drive.round f ∧ o = s.outside) ∧
          (drive = .nan → realNaN v = true ∧ o = { s.outside with drawn := s.outside.drawn + 1 }) ∧
          exec (.pidUpdate x y) s = .next (State.reply { s with
            pid := { s.pid with integrator := integrator, lastPosition := y' }
            outside := o } .ok [.real v]))

/-- The integrator lies in [iMin, iMax] after every update whenever iMin ≤ iMax, and is iMax otherwise, for every error
that is a number, an infinite one too (R416, R411). -/
def Obligations.IntegratorClamped : Prop :=
  ∀ (f : RealFmt) (p : Pid) (error position : Real64), realFinite p.iMin = true → realFinite p.iMax = true →
    realFinite p.integrator = true → realNaN error = false →
    (realRat p.iMin ≤ realRat p.iMax →
      realLe p.iMin (p.after f error position).integrator = true ∧
      realLe (p.after f error position).integrator p.iMax = true) ∧
    (realRat p.iMax < realRat p.iMin → (p.after f error position).integrator = p.iMax) ∧
    realFinite (p.after f error position).integrator = true

/-! ### Regulator (R430 to R442) -/

/-- REG.START (R434) and REG.STOP (R435) with the stop procedure (R436): a stop leaves PWM value, `frac` and
`latestDrive` at 0 and cancels the tick; a start while running stops first; it leaves exactly one tick, at now. -/
def Obligations.RegStartStop : Prop :=
  ∀ s : State,
    let stopped : State := { s with
      timers := { s.timers with regTick := none }
      reg := { s.reg with state := .stopped, latestDrive := 0 }
      pwm := { s.pwm with frac := 0, value := 0 } }
    encode .regStop = [0x91] ∧
    exec .regStop s = .next (stopped.reply .ok []) ∧
    encode .regStart = [0x90] ∧
    exec .regStart s = .next (
      let s' := if s.reg.state = .running then stopped else s
      State.reply { s' with
        reg := { s'.reg with state := .running, fault := false, nextDue := s.now }
        timers := { s.timers with regTick := some s.now } } .ok [])

/-- REG.SETTARGET (R438), REG.SETTIMESTEP (R439) and REG.SETPOWER (R440): the period is the exact product of the time step
and 10^6 rounded with halves away from zero. An operand is checked and converted as it is given, and stored rounded to REAL_FMT
(R13); what is stored of one beyond the finite values of REAL_FMT is free, the model's choice (log entry 27). -/
def Obligations.RegSettings : Prop :=
  ∀ (s : State) (x : Real64) (period : Int) (on : Byte), period = (realRat x * 1000000 + 1 / 2).floor →
    ∃ x' : Real64, (realFinite x = true → s.Stores x x') ∧
    encode (.regSettarget x) = 0x92 :: bytes64 x ∧
    exec (.regSettarget x) s = .next (
      if realFinite x = false then s.reply .badarg []
      else State.reply { s with reg := { s.reg with target := x' } } .ok []) ∧
    encode (.regSettimestep x) = 0x93 :: bytes64 x ∧
    exec (.regSettimestep x) s = .next (
      if realFinite x = false then s.reply .badarg []
      else if period < 1 ∨ 2 ^ 31 - 1 < period then s.reply .badarg []
      else State.reply { s with reg := { s.reg with timeStep := x', periodUs := period.toNat } } .ok []) ∧
    encode (.regSetpower on) = [0x94, on] ∧
    exec (.regSetpower on) s = .next (
      if 1 < on.toNat then s.reply .badarg []
      else State.reply { s with reg := { s.reg with power := decide (on = 1) } } .ok [])

/-- One tick of the running regulator (R431, R432, R433, R437): an invalid reading drives 0 and leaves the PID alone; a
valid one updates the PID; a drive that is no number stops the loop with the fault set; any other is gated by `power`,
clamped, written to the PWM and published, and the next tick is one period after this one's due time. (The format is legal
in every configuration that runs; the clamped drive is then a value of it already.) -/
def Obligations.RegTick : Prop :=
  ∀ (s : State) (temp error : Real64) (f : RealFmt), s.reg.state = .running → temp = s.temp.sample.value →
    f = s.cfg.realFmt → error = ((realNum s.reg.target).sub (realNum temp)).round f →
    ((s.temp.sample.valid = false ∨ realLe temp s.cfg.regSentinel = true) →
      fire .regTick s = .next { s with
        pwm := { s.pwm with frac := 0, value := 0 }
        reg := { s.reg with latestTemp := temp, latestDrive := 0, nextDue := s.reg.nextDue + s.reg.periodUs }
        timers := { s.timers with regTick := some (s.reg.nextDue + s.reg.periodUs) } }) ∧
    (s.temp.sample.valid = true → realLe temp s.cfg.regSentinel = false →
      (s.pid.drive f error temp = .nan →
        fire .regTick s = .next { s with
          pid := s.pid.after f error temp
          pwm := { s.pwm with frac := 0, value := 0 }
          reg := { s.reg with state := .stopped, fault := true, latestTemp := temp, latestDrive := 0 }
          timers := { s.timers with regTick := none } }) ∧
      (f.legal = true → s.pid.drive f error temp ≠ .nan →
        ∀ d, d = clamp (if s.reg.power then (s.pid.drive f error temp).round f else 0) 0 0x3FF0000000000000 →
        fire .regTick s = .next { s with
          pid := s.pid.after f error temp
          pwm := { s.pwm with frac := d, value := onTicks d s.pwm.range }
          reg := { s.reg with latestTemp := temp, latestDrive := d, nextDue := s.reg.nextDue + s.reg.periodUs }
          timers := { s.timers with regTick := some (s.reg.nextDue + s.reg.periodUs) } }))

/-! ### Notifications (R460 to R466) -/

/-- NTF.POP (R464) and NTF.ENABLE (R465), the interrupt line (R463), and `emit(n)` (R461, R462): discarded when the enable
bit of its class is clear, dropped and counted when the queue is full, appended otherwise; it touches nothing else. -/
def Obligations.Notifications : Prop :=
  (∀ (s : State) (n : Ntf) (bit : Nat),
    bit = (match n.kind with | .flowStart => 0 | .flowStop => 0 | .flowTarget => 0 | .button => 1 | .edge => 2) →
    s.emit n = { s with ntf :=
      if s.ntf.enable.getLsbD bit = false then s.ntf
      else if s.ntf.queue.length = s.cfg.ntfDepth then { s.ntf with dropped := s.ntf.dropped + 1 }
      else { s.ntf with queue := s.ntf.queue ++ [n] } }) ∧
  ∀ (s : State) (mask : Byte),
    encode .ntfPop = [0xA0] ∧
    (s.ntf.queue = [] → exec .ntfPop s = .next (s.reply .empty [.u8 0, .u32 0, .u32 0, .u32 0])) ∧
    (∀ n rest, s.ntf.queue = n :: rest →
      exec .ntfPop s = .next (State.reply { s with ntf := { s.ntf with queue := rest } } .ok
        [.u8 (match n.kind with
          | .flowStart => 1 | .flowStop => 2 | .flowTarget => 3 | .button => 4 | .edge => 5),
          .u32 n.a, .u32 n.b, .u32 n.c])) ∧
    encode (.ntfEnable mask) = [0xA1, mask] ∧
    exec (.ntfEnable mask) s = .next (
      if 7 < mask.toNat then s.reply .badarg []
      else State.reply { s with ntf := { s.ntf with enable := mask } } .ok []) ∧
    (s.irq = true ↔ s.ntf.queue ≠ [])

/-! ### The whole machine -/

/-- The schedule agrees with the units and no timed action is overdue, after every step (R39, R40, R255, R431, R470). -/
def Obligations.StepKeepsScheduleSound : Prop :=
  ∀ s t : State, s.ScheduleSound → step s = .next t → t.ScheduleSound

/-- No step from a state whose schedule is sound faults: the block has no stuck state (R623). -/
def Obligations.SoundStepNeverFaults : Prop :=
  ∀ (s : State) (f : Fault), s.ScheduleSound → step s ≠ .fault f

/-- Every requester has at most one conversion outstanding, the host's exactly while its command holds the port, and every
hold has the bound of its command, after every step (R40, R258, R390). -/
def Obligations.StepKeepsHoldsServed : Prop :=
  ∀ s t : State, s.Sound → step s = .next t → t.RequestsSound ∧ t.HoldTimed

/-- The sampler loop never stops, a host measurement is pending or under way exactly while a command waits for it, and no
measurement starts earlier than MIN_TRIGGER_INTERVAL_US after the last, after every step (R341, R344, R346, R347, R349). -/
def Obligations.StepKeepsRangeLoop : Prop :=
  ∀ s t : State, s.Sound → step s = .next t → t.RangeLoop ∧ t.TriggersSpaced

/-- Every hold has the pending timed action that will end it or move it on, not before now: no hold is stuck (R40, R623). A
pulse, an edge wait and a READY in BACKGROUND mode have their deadline (R223, R225, R349); a voltage or a pressure has the
poll of the conversion in flight (R255, R258); a MEASURE and a READY in POLL mode have the start of their measurement, the
trigger's end or the echo's timeout (R341, R347, R349). None outlives its deadline. -/
def Obligations.HeldPortHasPendingAction : Prop :=
  ∀ (s : State) (h : Hold), s.Sound → s.port = .held h →
    (∀ dl, h.tDl = some dl → s.now ≤ dl ∧ s.timers.hostDeadline = some dl) ∧
    match h.op with
    | .pulse _ _ _ => h.tDl.isSome = true
    | .waitEdge _ _ => h.tDl.isSome = true
    | .getVoltage _ => h.tDl = none ∧ ∃ due, s.timers.adcPoll = some due ∧ s.now ≤ due
    | .getBar => h.tDl = none ∧ ∃ due, s.timers.adcPoll = some due ∧ s.now ≤ due
    | .measure => h.tDl = none ∧ ∃ a ∈ [Action.rangeHostTrig, .rangeTrigEnd, .rangeEchoTimeout],
        ∃ due, s.timers.get a = some due ∧ s.now ≤ due
    | .ready =>
      (s.cfg.rangeMode = .background → h.tDl.isSome = true) ∧
      (s.cfg.rangeMode = .poll → h.tDl = none ∧ ∃ a ∈ [Action.rangeHostTrig, .rangeTrigEnd, .rangeEchoTimeout],
        ∃ due, s.timers.get a = some due ∧ s.now ≤ due)

/-- The PWM's, the queue's, the decoder's and the stopwatch's fields keep their legal values, after every step (R32, R38,
R41, R48). -/
def Obligations.StepKeepsUnitsLegal : Prop :=
  ∀ s t : State, (s.PwmLegal ∧ s.QueueLegal ∧ s.DecoderLegal ∧ s.ClockLegal) → step s = .next t →
    t.PwmLegal ∧ t.QueueLegal ∧ t.DecoderLegal ∧ t.ClockLegal

/-- The button mask never has a bit of a button that does not exist, after every step (R44, R396). -/
def Obligations.StepKeepsButtonsLegal : Prop :=
  ∀ s t : State, s.Sound → s.ButtonsLegal → step s = .next t → t.ButtonsLegal

/-- Every stored REAL is a value of REAL_FMT and none is ever a NaN (R50, R13): every one that holds an operand, a sample or
a drive stays finite, the smoothed range a number, the speed of positive sign, in binary64 positive, and the period legal,
after every step (R605, R47, R350). That a smoothed range without a value is a free number, and so is what is stored of an
operand beyond the finite values of REAL_FMT, is the model's choice (log entries 14 and 27). -/
def Obligations.StepKeepsRealsLegal : Prop :=
  ∀ s t : State, s.RealsLegal → step s = .next t → t.RealsLegal

/-- No step changes the configuration, a pin's owner, or the direction and edge mode of a pin that a unit owns (R35, R36,
R49, R108). -/
def Obligations.StepKeepsWiring : Prop := ∀ s t : State, step s = .next t → State.SameWiring s t

/-- The state after reset under a well-formed configuration (R36, R701, R702), the reset probe answered `ack` and
`answer`. -/
def Obligations.ResetValues : Prop :=
  ∀ (c : Config) (ack : Bool) (answer : Option (Byte × Byte)) (s : State), c.wellFormed = true →
    s = State.resetWith c ack answer →
    s.now = 0 ∧ s.port = .idle ∧
    (∀ a due, s.timers.get a = some due ↔
      (a = .btnPoll ∧ due = c.btnPollUs) ∨ (a = .rangeSample ∧ c.rangeMode = .background ∧ due = 0)) ∧
    s.pins.length = c.npins ∧
    (∀ p < c.npins, (s.pin p).outLevel = false ∧ (s.pin p).hostSub = false ∧
      ((s.pin p).dir = .input → (s.pin p).inLevel = c.pinInit.getD p false)) ∧
    (∀ p, (p = c.pinTemp ∨ p = c.pinEcho ∨ p = c.pinFlow) → (s.pin p).dir = .input ∧ (s.pin p).edgeMode = .both) ∧
    (s.pin c.pinTemp).owner = .temp ∧ (s.pin c.pinEcho).owner = .range ∧ (s.pin c.pinFlow).owner = .flow ∧
    (s.pin c.pinTrig).dir = .output ∧ (s.pin c.pinTrig).edgeMode = .off ∧ (s.pin c.pinTrig).owner = .range ∧
    (s.pin c.pinPwm).dir = .output ∧ (s.pin c.pinPwm).owner = .pwm ∧
    (∀ p < c.npins, p ∉ [c.pinTemp, c.pinTrig, c.pinEcho, c.pinFlow, c.pinPwm] →
      (s.pin p).dir = .input ∧ (s.pin p).edgeMode = .off ∧
      (s.pin p).owner = if c.btnMode = .pins ∧ p ∈ c.pinBtn then .btn else .host) ∧
    s.clk.swRunning = false ∧ s.clk.swStart = 0 ∧ s.clk.swStop = 0 ∧
    s.adc.presence = (if ack && answer.isSome then .present else .absent) ∧ s.adc.phase = .idle ∧ s.adc.queue = [] ∧
    s.pwm = { divisor := c.pwmDiv0, range := c.pwmRange0, value := 0, frac := 0, enabled := true } ∧
    s.temp.bitCount = 0 ∧ s.temp.word = 0 ∧ s.temp.lastRise = none ∧
    s.temp.sample = { value := 0, valid := false, ts := 0 } ∧
    s.temp.frames = 0 ∧ s.temp.parityErr = 0 ∧ s.temp.prefixErr = 0 ∧ s.temp.rangeErr = 0 ∧ s.temp.syncErr = 0 ∧
    s.range = { phase := .idle, req := .sampler, attempt := .first, tTrigEnd := 0, rise := 0, lastTrigger := none,
                speed := c.speed0, filtered := 0, count := 0, valid := false } ∧
    s.flow = { count := 0, armed := false, target := 0, flowing := false, lastEdge := 0 } ∧
    s.btn.mask = 0 ∧ (∀ i, s.btn.lastChange.getD i 0 = 0) ∧ s.btn.polling = false ∧
    s.pid = { pGain := 0, iGain := 0, dGain := 0, iMin := 0, iMax := 0, integrator := 0, lastPosition := 0 } ∧
    s.reg.state = .stopped ∧ s.reg.target = 0 ∧ s.reg.timeStep = c.regTimestep0 ∧
    (c.regTimestep0 = 0x3FF0000000000000 → s.reg.periodUs = 1000000) ∧
    s.reg.power = false ∧ s.reg.latestTemp = 0 ∧ s.reg.latestDrive = 0 ∧ s.reg.fault = false ∧ s.reg.nextDue = 0 ∧
    s.ntf = { queue := [], enable := 0, dropped := 0 } ∧ s.irq = false

/-- Every invariant holds after reset, under every configuration that is well formed once its REAL parameters are rounded to
its REAL_FMT, as reset rounds them (R9, R13; log entry 3), and whatever the reset probe's answers. That
`State.reset` has the configuration CFG-V and an ADC that answers is the model's choice (log entries 1 and 11). -/
def Obligations.ResetMeetsInvariants : Prop :=
  (∀ (c : Config) (ack : Bool) (answer : Option (Byte × Byte)) (s : State), c.rounded.wellFormed = true →
    s = State.resetWith c ack answer →
    s.cfg = c.rounded ∧ s.Sound ∧ s.PwmLegal ∧ s.QueueLegal ∧ s.DecoderLegal ∧ s.ButtonsLegal ∧ s.RealsLegal ∧ s.ClockLegal) ∧
  Config.vector.wellFormed = true ∧ State.reset = State.resetWith Config.vector true (some (0, 0))

/-! ### REAL arithmetic (R13) -/

/-- Rounding once to REAL_FMT, to nearest with ties to even (R9, R13), in every legal format: what it answers is a value of
the format, finite exactly below the midpoint between the format's largest value and the next power of two; no other finite
value of the format is nearer; and on a tie it is an even multiple of the step to the other one, in binary64 with an even
significand. A REAL is converted to the format by the same rounding, a zero, an infinity and a NaN as they are; in binary64
every REAL is a value of the format. -/
def Obligations.RoundingIsNearest : Prop :=
  ∀ (f : RealFmt) (q : Rat) (r : Real64), f.legal = true → r = roundRat f q →
    (realFinite r = true ↔
      |q| < 2 ^ ((f.maxExponent : Int) + 1) - 2 ^ ((f.maxExponent : Int) - (f.precision : Int))) ∧
    inFormat f r = true ∧
    (realFinite r = true → ∀ y, realFinite y = true → inFormat f y = true →
      |realRat r - q| ≤ |realRat y - q| ∧
      (|realRat r - q| = |realRat y - q| → realRat y ≠ realRat r →
        (∃ k : Int, realRat r = 2 * k * |realRat y - realRat r|) ∧ (f = .binary64 → r.getLsbD 0 = false))) ∧
    (∀ x, toFormat f x = if realRat x = 0 then x else roundRat f (realRat x)) ∧
    ∀ x, inFormat .binary64 x = true

/-- The exact formulas before their one rounding (R13): on finite REALs a sum, a difference and a product have exactly the
rational value and are no infinity and no NaN; rounding an exact value is rounding that rational, and a zero if it is 0. -/
def Obligations.FormulasAreExact : Prop :=
  ∀ (f : RealFmt) (x y : Real64), realFinite x = true → realFinite y = true →
    ∀ (n : Machine.Num) (q : Rat),
      ((n = (realNum x).add (realNum y) ∧ q = realRat x + realRat y) ∨
        (n = (realNum x).sub (realNum y) ∧ q = realRat x - realRat y) ∨
        (n = (realNum x).mul (realNum y) ∧ q = realRat x * realRat y)) →
      n ≠ .nan ∧ (∀ neg, n ≠ .inf neg) ∧ n.rat = q ∧
      (q ≠ 0 → n.round f = roundRat f q) ∧ (q = 0 → realZero (n.round f) = true)
end

