-- ==== Sys2Proof/Laws/Real.lean ====
section
/-! SUPPORT. REAL patterns and their values (R13, R605): the value of a finite pattern is a whole number of units of
`2^-1074`, and the order of keys is the order of values. -/

namespace Sys2Proof.Machine

/-- The value of a magnitude in units of `2^-1074`. -/
def magUnits (m : Nat) : Nat :=
  (if m / 2 ^ 52 = 0 then m % 2 ^ 52 else 2 ^ 52 + m % 2 ^ 52) * 2 ^ (max (m / 2 ^ 52) 1 - 1)

theorem scaled_eq_units (sig k : Nat) (hk : 1 ≤ k) :
    (if 1075 ≤ k then ((sig * 2 ^ (k - 1075) : Nat) : Rat) else mkRat sig (2 ^ (1075 - k))) =
      ((sig * 2 ^ (k - 1) : Nat) : Rat) / 2 ^ 1074 := by
  rw [eq_div_iff (pow_ne_zero _ two_ne_zero)]
  split
  · rename_i h
    obtain ⟨j, rfl⟩ := Nat.exists_eq_add_of_le h
    rw [show 1075 + j - 1075 = j by omega, show 1075 + j - 1 = j + 1074 by omega]
    rw [Nat.cast_mul, Nat.cast_mul, Nat.cast_pow, Nat.cast_pow, Nat.cast_ofNat, mul_assoc, ← pow_add]
  · rename_i h
    obtain ⟨j, hj⟩ := Nat.exists_eq_add_of_le (show k ≤ 1075 by omega)
    obtain ⟨i, rfl⟩ := Nat.exists_eq_add_of_le hk
    rw [show 1075 - (1 + i) = j by omega, show 1 + i - 1 = i by omega, Rat.mkRat_eq_div]
    rw [show (1074 : Nat) = j + i by omega, pow_add]
    push_cast
    have : (2 : Rat) ^ j ≠ 0 := pow_ne_zero _ two_ne_zero
    field_simp

theorem magRat_eq_units (m : Nat) : magRat m = (magUnits m : Rat) / 2 ^ 1074 :=
  scaled_eq_units _ _ (le_max_right _ _)

theorem magUnits_lt_succ (m : Nat) : magUnits m < magUnits (m + 1) := by
  unfold magUnits
  have hlt : m % 2 ^ 52 < 2 ^ 52 := Nat.mod_lt _ (by norm_num)
  by_cases h : m % 2 ^ 52 + 1 < 2 ^ 52
  · rw [show (m + 1) / 2 ^ 52 = m / 2 ^ 52 by omega, show (m + 1) % 2 ^ 52 = m % 2 ^ 52 + 1 by omega]
    apply Nat.mul_lt_mul_of_pos_right _ (by positivity)
    split <;> omega
  · have hd : (m + 1) / 2 ^ 52 = m / 2 ^ 52 + 1 := by omega
    rw [hd, show (m + 1) % 2 ^ 52 = 0 by omega, if_neg (by omega : ¬(m / 2 ^ 52 + 1 = 0))]
    generalize m / 2 ^ 52 = e
    rcases e with _ | e
    · simp; omega
    · rw [if_neg (by omega), show max (e + 1) 1 - 1 = e by omega, show max (e + 1 + 1) 1 - 1 = e + 1 by omega, pow_succ 2 e]
      have : m % 2 ^ 52 * 2 ^ e < 2 ^ 52 * 2 ^ e := Nat.mul_lt_mul_of_pos_right hlt (by positivity)
      rw [Nat.add_mul, Nat.add_zero]
      generalize 2 ^ e = X at this
      generalize m % 2 ^ 52 = F at this
      omega

theorem magUnits_strictMono : StrictMono magUnits := strictMono_nat_of_lt_succ magUnits_lt_succ

theorem magUnits_zero : magUnits 0 = 0 := by decide

/-- The value of a pattern in signed units of `2^-1074`. -/
def realUnits (x : Real64) : Int := if realSign x then -(magUnits (realMag x) : Int) else magUnits (realMag x)

/-- The value of a finite pattern. -/
theorem realRat_eq_units {x : Real64} (h : realFinite x = true) : realRat x = (realUnits x : Rat) / 2 ^ 1074 := by
  unfold realRat realUnits
  rw [if_pos h, magRat_eq_units]
  split
  · rw [Int.cast_neg, Int.cast_natCast, neg_div]
  · rw [Int.cast_natCast]

theorem realRat_zero64 : realRat zero64 = 0 := by decide +kernel

theorem realRat_one64 : realRat one64 = 1 := by decide +kernel

/-- The order of keys is the order of values in units. -/
theorem realKey_le_iff_units (x y : Real64) : realKey x ≤ realKey y ↔ realUnits x ≤ realUnits y := by
  unfold realKey realUnits
  have m := magUnits_strictMono
  have z : ∀ n, (0 : Int) ≤ magUnits n := fun n => by positivity
  have e : ∀ n, magUnits n = 0 ↔ n = 0 := fun n => by
    rw [← m.injective.eq_iff (a := n) (b := 0), magUnits_zero]
  have hx := e (realMag x)
  have hy := e (realMag y)
  have le := m.le_iff_le (a := realMag x) (b := realMag y)
  have ge := m.le_iff_le (a := realMag y) (b := realMag x)
  split <;> split <;> omega

/-- A finite pattern is no NaN. -/
theorem realNaN_of_finite {x : Real64} (h : realFinite x = true) : realNaN x = false := by
  simp only [realFinite, decide_eq_true_eq] at h
  simp only [realNaN, decide_eq_false_iff_not]
  omega

/-- On finite patterns `realLe` compares values. -/
theorem realLe_iff {x y : Real64} (hx : realFinite x = true) (hy : realFinite y = true) :
    realLe x y = true ↔ realRat x ≤ realRat y := by
  rw [realRat_eq_units hx, realRat_eq_units hy, div_le_div_iff_of_pos_right (pow_pos two_pos _), Int.cast_le,
    ← realKey_le_iff_units]
  simp [realLe, realNaN_of_finite hx, realNaN_of_finite hy]

/-- On finite patterns `realLt` compares values. -/
theorem realLt_iff {x y : Real64} (hx : realFinite x = true) (hy : realFinite y = true) :
    realLt x y = true ↔ realRat x < realRat y := by
  rw [← not_le, ← realLe_iff hy hx]
  simp [realLe, realLt, realNaN_of_finite hx, realNaN_of_finite hy]

/-- The key of a finite pattern lies strictly between those of the infinities. -/
theorem realFinite_iff_key (x : Real64) :
    realFinite x = true ↔ -(infMag : Int) < realKey x ∧ realKey x < infMag := by
  simp only [realFinite, realKey, decide_eq_true_eq]
  split <;> omega

/-- A REAL between two finite ones is finite. -/
theorem realFinite_of_between {x lo hi : Real64} (hlo : realFinite lo = true) (hhi : realFinite hi = true)
    (h1 : realLe lo x = true) (h2 : realLe x hi = true) : realFinite x = true := by
  rw [realFinite_iff_key] at *
  simp only [realLe, Bool.and_eq_true, decide_eq_true_eq] at h1 h2
  omega

/-! ### `max`, `min` and `clamp` -/

/-- `max` answers one of its arguments. -/
theorem rmax_eq (x b : Real64) : rmax x b = x ∨ rmax x b = b := by
  unfold rmax; split_ifs <;> simp_all

/-- `min` answers one of its arguments. -/
theorem rmin_eq (x b : Real64) : rmin x b = x ∨ rmin x b = b := by
  unfold rmin; split_ifs <;> simp_all

theorem realKey_of_zero {x : Real64} (h : realZero x = true) : realKey x = 0 := by
  simp only [realZero, decide_eq_true_eq] at h
  simp [realKey, h]

/-- The key of a maximum of numbers. -/
theorem realKey_rmax {x b : Real64} (hx : realNaN x = false) (hb : realNaN b = false) :
    realKey (rmax x b) = max (realKey x) (realKey b) := by
  have hz : realZero x = true → realZero b = true → realKey x = realKey b := fun h h' => by
    rw [realKey_of_zero h, realKey_of_zero h']
  unfold rmax
  simp only [realLt, hx, hb]
  split_ifs <;> simp_all
  omega

/-- The key of a minimum of numbers. -/
theorem realKey_rmin {x b : Real64} (hx : realNaN x = false) (hb : realNaN b = false) :
    realKey (rmin x b) = min (realKey x) (realKey b) := by
  have hz : realZero x = true → realZero b = true → realKey x = realKey b := fun h h' => by
    rw [realKey_of_zero h, realKey_of_zero h']
  unfold rmin
  simp only [realLt, hx, hb]
  split_ifs <;> simp_all
  omega

/-- A maximum of numbers is a number. -/
theorem realNaN_rmax {x b : Real64} (hx : realNaN x = false) (hb : realNaN b = false) : realNaN (rmax x b) = false := by
  rcases rmax_eq x b with h | h <;> rw [h] <;> assumption

/-- A minimum of numbers is a number. -/
theorem realNaN_rmin {x b : Real64} (hx : realNaN x = false) (hb : realNaN b = false) : realNaN (rmin x b) = false := by
  rcases rmin_eq x b with h | h <;> rw [h] <;> assumption

/-- Everything `clamp` can do to a number: its key is the clamped key. -/
theorem realKey_clamp {x lo hi : Real64} (hx : realNaN x = false) (hlo : realNaN lo = false) (hhi : realNaN hi = false) :
    realKey (clamp x lo hi) = min (max (realKey x) (realKey lo)) (realKey hi) := by
  unfold clamp
  rw [realKey_rmin (realNaN_rmax hx hlo) hhi, realKey_rmax hx hlo]

theorem realNaN_clamp {x lo hi : Real64} (hx : realNaN x = false) (hlo : realNaN lo = false) (hhi : realNaN hi = false) :
    realNaN (clamp x lo hi) = false := realNaN_rmin (realNaN_rmax hx hlo) hhi

/-- A clamp between finite bounds is finite, of an infinity too. -/
theorem realFinite_clamp {x lo hi : Real64} (hx : realNaN x = false) (hlo : realFinite lo = true)
    (hhi : realFinite hi = true) : realFinite (clamp x lo hi) = true := by
  rw [realFinite_iff_key, realKey_clamp hx (realNaN_of_finite hlo) (realNaN_of_finite hhi)]
  rw [realFinite_iff_key] at hlo hhi
  omega

/-! ### Rounding -/

theorem realMag_signed (neg : Bool) {m : Nat} (h : m < 2 ^ 63) : realMag (signed neg m) = m := by
  unfold realMag signed
  rw [BitVec.toNat_ofNat]
  cases neg <;> simp <;> omega

theorem realSign_signed (neg : Bool) {m : Nat} (h : m < 2 ^ 63) : realSign (signed neg m) = neg := by
  unfold realSign signed
  rw [BitVec.getLsbD_ofNat, Nat.testBit_eq_decide_div_mod_eq]
  cases neg <;> simp <;> omega

theorem roundMag_le (f : RealFmt) (n d : Nat) : roundMag f n d ≤ infMag := by
  unfold roundMag
  simp only
  generalize infMag = i
  split_ifs <;> simp

theorem roundMag_lt (f : RealFmt) (n d : Nat) : roundMag f n d < 2 ^ 63 := lt_of_le_of_lt (roundMag_le f n d) (by decide)

/-- Rounding a rational never gives a NaN. -/
theorem realNaN_roundRat (f : RealFmt) (q : Rat) : realNaN (roundRat f q) = false := by
  unfold roundRat
  split
  · decide
  · have h := roundMag_le f q.num.natAbs q.den
    rw [realNaN, realMag_signed _ (roundMag_lt ..)]
    simpa using h

/-- Rounding an exact value gives a NaN only for the NaN. -/
theorem realNaN_round (f : RealFmt) (x : Num) : realNaN (x.round f) = decide (x = .nan) := by
  cases x with
  | fin q => simpa [Num.round] using realNaN_roundRat f q
  | negZero => simpa [Num.round] using (by decide : realNaN negZero64 = false)
  | inf s => cases s <;> simp [Num.round] <;> decide
  | nan => simp [Num.round]; decide

/-- Everything `nearestEven` answers: an integer within a half, even at a tie. -/
theorem nearestEven_spec (n : Nat) {d : Nat} (hd : 0 < d) :
    2 * n ≤ (2 * nearestEven n d + 1) * d ∧ 2 * nearestEven n d * d ≤ 2 * n + d ∧
      (2 * n = (2 * nearestEven n d + 1) * d → nearestEven n d % 2 = 0) ∧
      (2 * nearestEven n d * d = 2 * n + d → nearestEven n d % 2 = 0) := by
  have h := Nat.div_add_mod n d
  have hlt := Nat.mod_lt n hd
  unfold nearestEven
  simp only
  generalize n / d = q at *
  generalize n % d = r at *
  subst h
  have e : ∀ k, (2 * k + 1) * d = 2 * (d * k) + d := fun k => by ring
  have e' : ∀ k, 2 * k * d = 2 * (d * k) := fun k => by ring
  have e'' : d * (q + 1) = d * q + d := by ring
  rw [e, e']
  split_ifs <;> (try simp only [e'']) <;> omega

/-- `floorLog2` is the floor of the binary logarithm. -/
theorem floorLog2_spec {n d : Nat} (hn : 0 < n) (hd : 0 < d) :
    (2 : Rat) ^ floorLog2 n d ≤ (n : Rat) / d ∧ (n : Rat) / d < 2 ^ (floorLog2 n d + 1) := by
  have hd' : (0 : Rat) < d := by exact_mod_cast hd
  have n1 : 2 ^ Nat.log2 n ≤ n := Nat.log2_self_le hn.ne'
  have n2 : n < 2 ^ (Nat.log2 n + 1) := Nat.lt_log2_self
  have d1 : 2 ^ Nat.log2 d ≤ d := Nat.log2_self_le hd.ne'
  have d2 : d < 2 ^ (Nat.log2 d + 1) := Nat.lt_log2_self
  have n1' : (2 : Rat) ^ (Nat.log2 n : Int) ≤ n := by exact_mod_cast n1
  have n2' : (n : Rat) < 2 ^ ((Nat.log2 n : Int) + 1) := by exact_mod_cast n2
  have d1' : (2 : Rat) ^ (Nat.log2 d : Int) ≤ d := by exact_mod_cast d1
  have d2' : (d : Rat) < 2 ^ ((Nat.log2 d : Int) + 1) := by exact_mod_cast d2
  have lo : (2 : Rat) ^ ((Nat.log2 n : Int) - Nat.log2 d - 1) ≤ (n : Rat) / d := by
    rw [le_div_iff₀ hd']
    calc (2 : Rat) ^ ((Nat.log2 n : Int) - Nat.log2 d - 1) * d
        ≤ 2 ^ ((Nat.log2 n : Int) - Nat.log2 d - 1) * 2 ^ ((Nat.log2 d : Int) + 1) := by gcongr
      _ = 2 ^ (Nat.log2 n : Int) := by rw [← zpow_add₀ two_ne_zero]; congr 1; ring
      _ ≤ n := n1'
  have hi : (n : Rat) / d < 2 ^ ((Nat.log2 n : Int) - Nat.log2 d + 1) := by
    rw [div_lt_iff₀ hd']
    calc (n : Rat) < 2 ^ ((Nat.log2 n : Int) + 1) := n2'
      _ = 2 ^ ((Nat.log2 n : Int) - Nat.log2 d + 1) * 2 ^ (Nat.log2 d : Int) := by
        rw [← zpow_add₀ two_ne_zero]; congr 1; ring
      _ ≤ 2 ^ ((Nat.log2 n : Int) - Nat.log2 d + 1) * d := by gcongr
  have key : (2 : Rat) ^ ((Nat.log2 n : Int) - Nat.log2 d) ≤ (n : Rat) / d ↔
      (if 0 ≤ (Nat.log2 n : Int) - Nat.log2 d then d * 2 ^ ((Nat.log2 n : Int) - Nat.log2 d).toNat ≤ n
        else d ≤ n * 2 ^ (-((Nat.log2 n : Int) - Nat.log2 d)).toNat) := by
    rw [le_div_iff₀ hd']
    generalize (Nat.log2 n : Int) - Nat.log2 d = e
    split
    · rename_i h
      obtain ⟨k, rfl⟩ := Int.eq_ofNat_of_zero_le h
      rw [Int.toNat_natCast, zpow_natCast, mul_comm]
      exact_mod_cast Iff.rfl
    · rename_i h
      obtain ⟨k, hk⟩ := Int.eq_ofNat_of_zero_le (show 0 ≤ -e by omega)
      rw [hk, Int.toNat_natCast, show e = -(k : Int) by omega, zpow_neg, zpow_natCast, inv_mul_le_iff₀ (by positivity),
        mul_comm]
      exact_mod_cast Iff.rfl
  unfold floorLog2
  simp only
  by_cases hr : (2 : Rat) ^ ((Nat.log2 n : Int) - Nat.log2 d) ≤ (n : Rat) / d
  · have := key.1 hr
    rw [if_pos (by split at this <;> simp_all)]
    exact ⟨hr, hi⟩
  · have := mt key.2 hr
    rw [if_neg (by split at this <;> simp_all)]
    refine ⟨lo, ?_⟩
    rw [sub_add_cancel]
    exact not_le.1 hr

/-- The value of a magnitude written as a binade offset and a significand of up to 53 bits. -/
theorem magUnits_binade (U m : Nat) (hm : m ≤ 2 ^ 53) (h : U = 0 ∨ 2 ^ 52 ≤ m) :
    magUnits (U * 2 ^ 52 + m) = m * 2 ^ U := by
  unfold magUnits
  rcases Nat.lt_or_ge m (2 ^ 52) with h1 | h1
  · obtain rfl : U = 0 := by omega
    rw [show (0 * 2 ^ 52 + m) / 2 ^ 52 = 0 by omega, show (0 * 2 ^ 52 + m) % 2 ^ 52 = m by omega]
    rfl
  · rcases Nat.lt_or_ge m (2 ^ 53) with h2 | h2
    · rw [show (U * 2 ^ 52 + m) / 2 ^ 52 = U + 1 by omega, show (U * 2 ^ 52 + m) % 2 ^ 52 = m - 2 ^ 52 by omega,
        if_neg (by omega), show max (U + 1) 1 - 1 = U by omega, show 2 ^ 52 + (m - 2 ^ 52) = m by omega]
    · obtain rfl : m = 2 ^ 53 := by omega
      rw [show (U * 2 ^ 52 + 2 ^ 53) / 2 ^ 52 = U + 2 by omega, show (U * 2 ^ 52 + 2 ^ 53) % 2 ^ 52 = 0 by omega,
        if_neg (by omega), show max (U + 2) 1 - 1 = U + 1 by omega, pow_succ 2 U]
      ring

/-- The magnitude that `packMag` writes has the value asked for. -/
theorem magUnits_packMag {m : Nat} (hm : m ≤ 2 ^ 53) (k : Nat) : magUnits (packMag m k) = m * 2 ^ k := by
  unfold packMag
  simp only
  by_cases h0 : m = 0
  · rw [if_pos h0, h0, magUnits_zero, Nat.zero_mul]
  · rw [if_neg h0]
    have lo : 2 ^ Nat.log2 m ≤ m := Nat.log2_self_le h0
    have hi : m < 2 ^ (Nat.log2 m + 1) := Nat.lt_log2_self
    obtain ⟨s, hs⟩ : ∃ s, s = min (52 - Nat.log2 m) k := ⟨_, rfl⟩
    rw [← hs]
    have hsk : s ≤ k := hs ▸ min_le_right _ _
    have hup : m * 2 ^ s ≤ 2 ^ 53 := by
      rcases Nat.lt_or_ge 52 (Nat.log2 m) with h | h
      · rw [show s = 0 by omega, pow_zero, Nat.mul_one]; exact hm
      · calc m * 2 ^ s ≤ 2 ^ (Nat.log2 m + 1) * 2 ^ s := Nat.mul_le_mul_right _ hi.le
          _ = 2 ^ (Nat.log2 m + 1 + s) := (pow_add ..).symm
          _ ≤ 2 ^ 53 := Nat.pow_le_pow_right (by norm_num) (by omega)
    have hlo : k - s = 0 ∨ 2 ^ 52 ≤ m * 2 ^ s := by
      rcases Nat.lt_or_ge s k with h | h
      · right
        calc 2 ^ 52 ≤ 2 ^ (Nat.log2 m + s) := Nat.pow_le_pow_right (by norm_num) (by omega)
          _ = 2 ^ Nat.log2 m * 2 ^ s := pow_add ..
          _ ≤ m * 2 ^ s := Nat.mul_le_mul_right _ lo
      · left; omega
    rw [magUnits_binade _ _ hup hlo, Nat.mul_assoc, ← pow_add, Nat.add_sub_cancel' hsk]

/-- Rounding to the nearest significand, ties to even, of a value `x` in units of the last place. -/
def NearestSig (x : Rat) (m : Nat) : Prop :=
  |(m : Rat) - x| ≤ 1 / 2 ∧ (|(m : Rat) - x| = 1 / 2 → m % 2 = 0)

theorem nearestEven_sig (n : Nat) {d : Nat} (hd : 0 < d) : NearestSig ((n : Rat) / d) (nearestEven n d) := by
  obtain ⟨h1, h2, h3, h4⟩ := nearestEven_spec n hd
  generalize nearestEven n d = m at *
  have hd' : (0 : Rat) < d := by exact_mod_cast hd
  have h1' : 2 * (n : Rat) ≤ (2 * m + 1) * d := by exact_mod_cast h1
  have h2' : 2 * (m : Rat) * d ≤ 2 * n + d := by exact_mod_cast h2
  obtain ⟨x, hx⟩ : ∃ x : Rat, x = (n : Rat) / d := ⟨_, rfl⟩
  have hn : (n : Rat) = x * d := by rw [hx]; field_simp
  rw [hn] at h1' h2'
  have a1 : x ≤ m + 1 / 2 := by nlinarith
  have a2 : (m : Rat) - 1 / 2 ≤ x := by nlinarith
  rw [← hx]
  refine ⟨abs_le.2 ⟨by linarith, by linarith⟩, fun ht => ?_⟩
  rcases abs_eq (by norm_num : (0 : Rat) ≤ 1 / 2) |>.1 ht with e | e
  · apply h4
    have : 2 * (m : Rat) * d = 2 * n + d := by rw [hn]; have : (m : Rat) = x + 1 / 2 := by linarith
                                               rw [this]; ring
    exact_mod_cast this
  · apply h3
    have : 2 * (n : Rat) = (2 * m + 1) * d := by rw [hn]; have : (m : Rat) = x - 1 / 2 := by linarith
                                                 rw [this]; ring
    exact_mod_cast this

/-- The last place of a format's least binade, in units of `2^-1074`: `2^leastPlace`. -/
def leastPlace (f : RealFmt) : Nat := 1076 - f.maxExponent - f.precision

/-- A legal format's bounds (log entry 3). -/
theorem legal_iff (f : RealFmt) :
    f.legal = true ↔ 2 ≤ f.precision ∧ f.precision ≤ 53 ∧ 2 ≤ f.maxExponent ∧ f.maxExponent ≤ 1023 := by
  simp [RealFmt.legal, and_assoc]

/-- The finite values of a format, in units of `2^-1074`. -/
def FormatHolds (f : RealFmt) (units : Nat) : Prop :=
  units < 2 ^ (f.maxExponent + 1075) ∧ ∃ m k, m ≤ 2 ^ f.precision ∧ leastPlace f ≤ k ∧ units = m * 2 ^ k

/-- Everything `roundMag` answers: `m` units of the last place of the value's binade, `m` the significand nearest the value;
the infinity where they reach `2^(maxExponent + 1)`. -/
theorem roundMag_spec {f : RealFmt} (hf : f.legal = true) {n d : Nat} (hn : 0 < n) (hd : 0 < d) :
    ∃ k m : Nat, m ≤ 2 ^ f.precision ∧ leastPlace f ≤ k ∧ NearestSig ((n : Rat) / d * 2 ^ 1074 / 2 ^ k) m ∧
      (k = leastPlace f ∨ (2 : Rat) ^ (f.precision - 1) ≤ (n : Rat) / d * 2 ^ 1074 / 2 ^ k) ∧
      (2 ^ (f.maxExponent + 1075) ≤ m * 2 ^ k → roundMag f n d = infMag) ∧
      (m * 2 ^ k < 2 ^ (f.maxExponent + 1075) → roundMag f n d < infMag ∧ magUnits (roundMag f n d) = m * 2 ^ k) := by
  obtain ⟨p2, p53, e2, e1023⟩ := (legal_iff f).1 hf
  obtain ⟨f1, f2⟩ := floorLog2_spec hn hd
  have hd' : (0 : Rat) < d := by exact_mod_cast hd
  obtain ⟨l, hl⟩ : ∃ l, l = floorLog2 n d := ⟨_, rfl⟩
  rw [← hl] at f1 f2
  obtain ⟨p, hp⟩ : ∃ p, p = f.precision := ⟨_, rfl⟩
  obtain ⟨e, he⟩ : ∃ e, e = f.maxExponent := ⟨_, rfl⟩
  have hleast : leastPlace f = 1076 - e - p := by rw [leastPlace, hp, he]
  obtain ⟨k, hk⟩ : ∃ k : Nat, max (l - ((p : Int) - 1)) (2 - e - p) = (k : Int) - 1074 :=
    ⟨(max (l - ((p : Int) - 1)) (2 - e - p) + 1074).toNat, by omega⟩
  obtain ⟨m, hm⟩ : ∃ m, m = (if 0 ≤ (k : Int) - 1074 then nearestEven n (d * 2 ^ ((k : Int) - 1074).toNat)
      else nearestEven (n * 2 ^ (-((k : Int) - 1074)).toNat) d) := ⟨_, rfl⟩
  have hx : NearestSig ((n : Rat) / d * 2 ^ 1074 / 2 ^ k) m := by
    rw [hm]
    split
    · rename_i h
      obtain ⟨j, rfl⟩ := Nat.exists_eq_add_of_le (show 1074 ≤ k by omega)
      have := nearestEven_sig n (d := d * 2 ^ j) (Nat.mul_pos hd (Nat.two_pow_pos j))
      rw [show ((((1074 + j : Nat) : Int) - 1074).toNat) = j by omega]
      convert this using 1
      push_cast
      rw [pow_add]
      have e : ((2 : Rat) ^ 1074) ≠ 0 := pow_ne_zero _ two_ne_zero
      generalize (2 : Rat) ^ 1074 = T at e ⊢
      field_simp
    · rename_i h
      obtain ⟨j, hj⟩ := Nat.exists_eq_add_of_le (show k ≤ 1074 by omega)
      have := nearestEven_sig (n * 2 ^ j) hd
      rw [show (-((k : Int) - 1074)).toNat = j by omega]
      convert this using 1
      push_cast
      rw [hj, pow_add]
      field_simp
  have up : (n : Rat) / d * 2 ^ 1074 / 2 ^ k < 2 ^ p := by
    rw [div_lt_iff₀ (by positivity)]
    calc (n : Rat) / d * 2 ^ 1074 < 2 ^ (l + 1) * 2 ^ 1074 := mul_lt_mul_of_pos_right f2 (pow_pos two_pos _)
      _ = (2 : Rat) ^ (l + 1 + 1074) := by rw [zpow_add₀ two_ne_zero (l + 1)]; rfl
      _ ≤ 2 ^ ((p : Int) + k) := zpow_le_zpow_right₀ (by norm_num) (by omega)
      _ = 2 ^ p * 2 ^ k := by rw [zpow_add₀ two_ne_zero, zpow_natCast, zpow_natCast]
  have dn : k = leastPlace f ∨ (2 : Rat) ^ (p - 1) ≤ (n : Rat) / d * 2 ^ 1074 / 2 ^ k := by
    rcases Nat.eq_or_lt_of_le (show leastPlace f ≤ k by omega) with h0 | h0
    · exact .inl h0.symm
    · right
      rw [le_div_iff₀ (by positivity)]
      calc (2 : Rat) ^ (p - 1) * 2 ^ k = 2 ^ (((p - 1 : Nat) : Int) + k) := by
            rw [zpow_add₀ two_ne_zero, zpow_natCast, zpow_natCast]
        _ ≤ (2 : Rat) ^ (l + 1074) := zpow_le_zpow_right₀ (by norm_num) (by omega)
        _ = 2 ^ l * 2 ^ 1074 := by rw [zpow_add₀ two_ne_zero l]; rfl
        _ ≤ (n : Rat) / d * 2 ^ 1074 := mul_le_mul_of_nonneg_right f1 (pow_nonneg zero_le_two _)
  have mp : m ≤ 2 ^ p := by
    clear f1 f2 dn
    generalize (n : Rat) / d * 2 ^ 1074 / 2 ^ k = x at hx up
    have := (abs_le.1 hx.1).2
    have : (m : Rat) < 2 ^ p + 1 := by linarith
    have : m < 2 ^ p + 1 := by exact_mod_cast this
    omega
  have units := magUnits_packMag (le_trans mp (Nat.pow_le_pow_right (by norm_num) (hp ▸ p53))) k
  have eq : roundMag f n d =
      if 2 ^ (e + 1075) ≤ m * 2 ^ k then infMag else min (packMag m k) infMag := by
    unfold roundMag
    simp only [← hl, ← hp, ← he, hk]
    rw [← hm, show ((k : Int) - 1074 + 1074).toNat = k by omega]
  rw [← hp, ← he]
  refine ⟨k, m, mp, by omega, hx, dn, fun h => by rw [eq, if_pos h], fun h => ?_⟩
  have fin : packMag m k < infMag := by
    rw [← magUnits_strictMono.lt_iff_lt, units]
    exact lt_of_lt_of_le h (by
      rw [show magUnits infMag = 2 ^ (RealFmt.binary64.maxExponent + 1075) by decide +kernel]
      exact Nat.pow_le_pow_right (by norm_num) (by show e + 1075 ≤ 1023 + 1075; omega))
  rw [eq, if_neg (not_le.2 h), min_eq_left fin.le]
  exact ⟨fin, units⟩

/-- A rounded magnitude that is finite is a value of the format. -/
theorem roundMag_holds {f : RealFmt} (hf : f.legal = true) {n d : Nat} (hn : 0 < n) (hd : 0 < d)
    (h : roundMag f n d < infMag) : FormatHolds f (magUnits (roundMag f n d)) := by
  obtain ⟨k, m, hm, hk, -, -, h1, h2⟩ := roundMag_spec hf hn hd
  rcases Nat.lt_or_ge (m * 2 ^ k) (2 ^ (f.maxExponent + 1075)) with hlt | hge
  · rw [(h2 hlt).2]
    exact ⟨hlt, m, k, hm, hk, rfl⟩
  · exact absurd (h1 hge) h.ne

/-- A value of the format is rounded to itself. -/
theorem roundMag_exact {f : RealFmt} (hf : f.legal = true) {n d : Nat} (hn : 0 < n) (hd : 0 < d) {u : Nat}
    (hu : FormatHolds f u) (hv : (n : Rat) / d * 2 ^ 1074 = u) :
    roundMag f n d < infMag ∧ magUnits (roundMag f n d) = u := by
  obtain ⟨p2, -⟩ := (legal_iff f).1 hf
  obtain ⟨k, m, hm, hk, hx, dn, -, h2⟩ := roundMag_spec hf hn hd
  obtain ⟨hlt, m', k', hm', hk', rfl⟩ := hu
  rw [hv] at hx dn
  -- the value is a whole number of units of the last place
  obtain ⟨j, hj⟩ : ∃ j : Nat, ((m' * 2 ^ k' : Nat) : Rat) / 2 ^ k = j := by
    rcases Nat.lt_or_ge k' k with h | h
    · have h53 : (2 : Rat) ^ (f.precision - 1) ≤ ((m' * 2 ^ k' : Nat) : Rat) / 2 ^ k := dn.resolve_left (by omega)
      rw [le_div_iff₀ (by positivity)] at h53
      have h53 : 2 ^ (f.precision - 1) * 2 ^ k ≤ m' * 2 ^ k' := by exact_mod_cast h53
      obtain ⟨i, rfl⟩ := Nat.exists_eq_add_of_lt h
      have hpow : 2 ^ (k' + i + 1) = 2 ^ k' * (2 * 2 ^ i) := by rw [Nat.add_assoc, pow_add, pow_succ']
      rw [hpow] at h53
      have hge : 2 ^ (f.precision - 1) * (2 * 2 ^ i) ≤ m' :=
        Nat.le_of_mul_le_mul_right (by calc
          2 ^ (f.precision - 1) * (2 * 2 ^ i) * 2 ^ k' = 2 ^ (f.precision - 1) * (2 ^ k' * (2 * 2 ^ i)) := by ring
          _ ≤ m' * 2 ^ k' := h53) (Nat.two_pow_pos k')
      have hpp : 2 ^ f.precision = 2 ^ (f.precision - 1) * 2 := by
        rw [← pow_succ, Nat.sub_add_cancel (by omega)]
      have hi1 : 1 ≤ 2 ^ i := Nat.one_le_two_pow
      have : 2 ^ f.precision * 2 ^ i ≤ 2 ^ f.precision * 1 := by
        rw [hpp] at hm' ⊢
        calc 2 ^ (f.precision - 1) * 2 * 2 ^ i = 2 ^ (f.precision - 1) * (2 * 2 ^ i) := by ring
          _ ≤ m' := hge
          _ ≤ 2 ^ (f.precision - 1) * 2 * 1 := by omega
      have hi : 2 ^ i = 1 := le_antisymm (Nat.le_of_mul_le_mul_left this (Nat.two_pow_pos _)) hi1
      have hm2 : m' = 2 ^ (f.precision - 1) * 2 := by rw [hi] at hge; omega
      refine ⟨2 ^ (f.precision - 1), ?_⟩
      rw [div_eq_iff (by positivity), hm2]
      have : k' + i + 1 = k' + 1 := by
        rcases i with _ | i
        · rfl
        · rw [pow_succ] at hi; omega
      rw [this, pow_succ]
      push_cast
      ring
    · obtain ⟨i, rfl⟩ := Nat.exists_eq_add_of_le h
      refine ⟨m' * 2 ^ i, ?_⟩
      rw [div_eq_iff (by positivity)]
      push_cast
      rw [pow_add]
      ring
  have hmj : m = j := by
    have := hx.1
    rw [hj, abs_le] at this
    have a1 : (m : Rat) < j + 1 := by linarith [this.2]
    have a2 : (j : Rat) < m + 1 := by linarith [this.1]
    have a1 : m < j + 1 := by exact_mod_cast a1
    have a2 : j < m + 1 := by exact_mod_cast a2
    omega
  have hval : m * 2 ^ k = m' * 2 ^ k' := by
    rw [div_eq_iff (by positivity)] at hj
    rw [hmj]
    exact_mod_cast hj.symm
  have := h2 (hval ▸ hlt)
  rwa [hval] at this

/-- Every magnitude below the infinity is a value of binary64. -/
theorem formatHolds_binary64 {m : Nat} (h : m < infMag) : FormatHolds .binary64 (magUnits m) := by
  refine ⟨?_, ?_⟩
  · calc magUnits m < magUnits infMag := magUnits_strictMono h
      _ = 2 ^ (RealFmt.binary64.maxExponent + 1075) := by decide +kernel
  · refine ⟨_, _, ?_, Nat.zero_le _, rfl⟩
    show _ ≤ 2 ^ 53
    split <;> omega

/-- The exact value of a finite REAL is no infinity and no NaN. -/
theorem realNum_finite {x : Real64} (h : realFinite x = true) : realNum x = .negZero ∨ realNum x = .fin (realRat x) := by
  unfold realNum
  simp only [realNaN_of_finite h, h]
  by_cases hz : x = negZero64 <;> simp [hz]

/-! ### The values of a format (R13, R50) -/

theorem roundRat_zero (f : RealFmt) : roundRat f 0 = zero64 := if_pos rfl

/-- The magnitude and the sign of a rational's rounding. -/
theorem roundRat_of_ne {f : RealFmt} {q : Rat} (hq : q ≠ 0) :
    realMag (roundRat f q) = roundMag f q.num.natAbs q.den ∧ realSign (roundRat f q) = decide (q < 0) := by
  unfold roundRat
  rw [if_neg hq]
  exact ⟨realMag_signed _ (roundMag_lt ..), realSign_signed _ (roundMag_lt ..)⟩

/-- A pattern is the one its sign and its magnitude make. -/
theorem signed_of_fields (x : Real64) : signed (realSign x) (realMag x) = x := by
  apply BitVec.eq_of_toNat_eq
  have hx := x.isLt
  unfold signed realSign realMag
  rw [BitVec.toNat_ofNat, BitVec.getLsbD, Nat.testBit_eq_decide_div_mod_eq]
  by_cases h : x.toNat / 2 ^ 63 % 2 = 1 <;> simp only [h, decide_true, decide_false, if_true] <;>
    simp at * <;> omega

/-- `|q|` as the quotient of naturals that rounding takes. -/
theorem natAbs_div_den (q : Rat) : ((q.num.natAbs : Nat) : Rat) / q.den = |q| := by
  rw [Nat.cast_natAbs, Int.cast_abs]
  conv_rhs => rw [← Rat.num_div_den q]
  rw [abs_div, Nat.abs_cast]

/-- The magnitude of a finite value in units. -/
theorem abs_realRat {x : Real64} (h : realFinite x = true) : |realRat x| * 2 ^ 1074 = magUnits (realMag x) := by
  have e : ((2 : Rat) ^ 1074) ≠ 0 := pow_ne_zero _ two_ne_zero
  have e0 : (0 : Rat) ≤ 2 ^ 1074 := pow_nonneg zero_le_two _
  rw [realRat_eq_units h, abs_div, abs_of_nonneg e0, div_mul_cancel₀ _ e, ← Int.cast_abs]
  unfold realUnits
  split <;> simp

theorem realFinite_iff_mag (x : Real64) : realFinite x = true ↔ realMag x < infMag := by simp [realFinite]

/-- The sign of a finite value that is not zero. -/
theorem sign_of_realRat {x : Real64} (h : realFinite x = true) (h0 : realRat x ≠ 0) :
    decide (realRat x < 0) = realSign x := by
  have e0 : (0 : Rat) < 2 ^ 1074 := pow_pos two_pos _
  have hlt : realRat x < 0 ↔ realUnits x < 0 := by
    rw [realRat_eq_units h, div_lt_iff₀ e0, zero_mul, Int.cast_lt_zero]
  have h0' : realUnits x ≠ 0 := fun h' => h0 (by rw [realRat_eq_units h, h', Int.cast_zero, zero_div])
  have key : ∀ (s : Bool) (u : Nat), (if s then -(u : Int) else u) ≠ 0 →
      decide ((if s then -(u : Int) else u) < 0) = s := by
    intro s u hu
    cases s <;> simp at hu ⊢
    omega
  exact (decide_eq_decide.2 hlt).trans (key _ _ h0')

/-- The only finite REALs of value 0 are the two zeros. -/
theorem eq_zero_of_realRat {x : Real64} (hx : realFinite x = true) (hz : x ≠ negZero64) (h0 : realRat x = 0) :
    x = zero64 := by
  have hm : magUnits (realMag x) = 0 := by
    have : ((magUnits (realMag x) : Nat) : Rat) = 0 := by rw [← abs_realRat hx, h0]; simp
    exact_mod_cast this
  have hm : realMag x = 0 := magUnits_strictMono.injective (hm.trans magUnits_zero.symm)
  have := signed_of_fields x
  rw [hm] at this
  cases hs : realSign x
  · rw [← this, hs]; decide
  · exact absurd (by rw [← this, hs]; decide) hz

/-- A REAL whose value a format holds is rounded to itself. -/
theorem toFormat_of_holds {f : RealFmt} (hf : f.legal = true) {x : Real64} (hx : realFinite x = true)
    (h : FormatHolds f (magUnits (realMag x))) : toFormat f x = x := by
  unfold toFormat
  rw [if_pos hx]
  unfold realNum
  rw [realNaN_of_finite hx, hx]
  by_cases hz : x = negZero64
  · simp [hz, Num.round]
  · simp only [Bool.false_eq_true, if_false, Bool.not_true, if_neg hz, Num.round]
    by_cases h0 : realRat x = 0
    · rw [h0, roundRat_zero, eq_zero_of_realRat hx hz h0]
    · have hn : 0 < (realRat x).num.natAbs := Int.natAbs_pos.2 (Rat.num_ne_zero.2 h0)
      obtain ⟨-, hm⟩ := roundMag_exact hf hn (realRat x).den_pos h (by rw [natAbs_div_den, abs_realRat hx])
      have hm := magUnits_strictMono.injective hm
      unfold roundRat
      rw [if_neg h0, hm]
      rw [sign_of_realRat hx h0, signed_of_fields]

/-- Under the default `REAL_FMT` a conversion changes nothing (R9, R142). -/
@[simp] theorem toFormat_binary64 (x : Real64) : toFormat .binary64 x = x := by
  by_cases h : realFinite x = true
  · exact toFormat_of_holds (by decide) h (formatHolds_binary64 ((realFinite_iff_mag x).1 h))
  · unfold toFormat; rw [if_neg h]

theorem formatHolds_zero (f : RealFmt) : FormatHolds f 0 :=
  ⟨Nat.two_pow_pos _, 0, leastPlace f, Nat.zero_le _, le_refl _, (Nat.zero_mul _).symm⟩

/-- A finite REAL is a value of a legal format exactly where the format holds its magnitude. -/
theorem inFormat_iff {f : RealFmt} (hf : f.legal = true) {x : Real64} (hx : realFinite x = true) :
    inFormat f x = true ↔ FormatHolds f (magUnits (realMag x)) := by
  unfold inFormat
  rw [decide_eq_true_eq]
  refine ⟨fun h => ?_, toFormat_of_holds hf hx⟩
  rcases realNum_finite hx with e | e
  · rw [toFormat, if_pos hx, e, Num.round] at h
    rw [← h]
    exact formatHolds_zero f
  · rw [toFormat, if_pos hx, e, Num.round] at h
    by_cases h0 : realRat x = 0
    · rw [← h, h0, roundRat_zero]
      exact formatHolds_zero f
    · have hm := (roundRat_of_ne (f := f) h0).1
      rw [h] at hm
      rw [realFinite_iff_mag, hm] at hx
      rw [hm]
      exact roundMag_holds hf (Int.natAbs_pos.2 (Rat.num_ne_zero.2 h0)) (realRat x).den_pos hx

/-- What rounding answers is a value of the format. -/
theorem inFormat_roundRat {f : RealFmt} (hf : f.legal = true) (q : Rat) : inFormat f (roundRat f q) = true := by
  by_cases hx : realFinite (roundRat f q) = true
  · rw [inFormat_iff hf hx]
    by_cases h0 : q = 0
    · rw [h0, roundRat_zero]
      exact formatHolds_zero f
    · rw [realFinite_iff_mag, (roundRat_of_ne h0).1] at hx
      rw [(roundRat_of_ne h0).1]
      exact roundMag_holds hf (Int.natAbs_pos.2 (Rat.num_ne_zero.2 h0)) q.den_pos hx
  · unfold inFormat toFormat; rw [if_neg hx]; simp

/-- An infinity and a NaN are values of every format. -/
theorem inFormat_of_not_finite (f : RealFmt) {x : Real64} (h : realFinite x = false) : inFormat f x = true := by
  unfold inFormat toFormat; rw [h]; simp

theorem inFormat_zero64 (f : RealFmt) : inFormat f zero64 = true := by
  have e : realNum zero64 = .fin 0 := by decide +kernel
  simp [inFormat, toFormat, e, Num.round, roundRat]

theorem inFormat_negZero64 (f : RealFmt) : inFormat f negZero64 = true := by
  have e : realNum negZero64 = .negZero := by decide +kernel
  simp [inFormat, toFormat, e, Num.round]

/-- `1.0` is a value of every legal format. -/
theorem inFormat_one64 {f : RealFmt} (hf : f.legal = true) : inFormat f one64 = true := by
  obtain ⟨p2, p53, e2, e1023⟩ := (legal_iff f).1 hf
  have units : magUnits (realMag one64) = 2 ^ (RealFmt.binary64.maxExponent + 51) := by decide +kernel
  have e : RealFmt.binary64.maxExponent = 1023 := rfl
  rw [inFormat_iff hf (by decide), units]
  generalize RealFmt.binary64.maxExponent = E at e
  refine ⟨Nat.pow_lt_pow_right (by norm_num) (by omega), 2, E + 50, ?_, ?_, pow_succ' _ _⟩
  · exact Nat.le_self_pow (by omega) 2
  · unfold leastPlace; omega

/-- Rounding an exact value once gives a value of the format. -/
theorem inFormat_round {f : RealFmt} (hf : f.legal = true) (x : Num) : inFormat f (x.round f) = true := by
  cases x with
  | fin q => exact inFormat_roundRat hf q
  | negZero => exact inFormat_negZero64 f
  | inf s => exact inFormat_of_not_finite f (by cases s <;> decide : realFinite (signed s infMag) = false)
  | nan => exact inFormat_of_not_finite f (by decide : realFinite nan64 = false)

/-- A conversion answers a value of the format. -/
theorem inFormat_toFormat {f : RealFmt} (hf : f.legal = true) (x : Real64) : inFormat f (toFormat f x) = true := by
  by_cases h : realFinite x = true
  · rw [toFormat, if_pos h]; exact inFormat_round hf _
  · rw [toFormat, if_neg h]; exact inFormat_of_not_finite f (by simpa using h)

/-- A clamp answers a value of the format if its arguments are values of it. -/
theorem inFormat_clamp {f : RealFmt} {x lo hi : Real64} (hx : inFormat f x = true) (hlo : inFormat f lo = true)
    (hhi : inFormat f hi = true) : inFormat f (clamp x lo hi) = true := by
  unfold clamp
  rcases rmin_eq (rmax x lo) hi with h | h <;> rw [h]
  · rcases rmax_eq x lo with h | h <;> rw [h] <;> assumption
  · assumption

/-- A conversion gives a NaN only for a NaN. -/
theorem realNaN_toFormat (f : RealFmt) (x : Real64) : realNaN (toFormat f x) = realNaN x := by
  by_cases h : realFinite x = true
  · rw [toFormat, if_pos h, realNaN_round, realNaN_of_finite h]
    rcases realNum_finite h with e | e <;> rw [e] <;> simp
  · rw [toFormat, if_neg h]

/-- An operand that is not finite stays so (R605). -/
theorem realFinite_of_toFormat {f : RealFmt} {x : Real64} (h : realFinite (toFormat f x) = true) : realFinite x = true := by
  by_contra hx
  rw [toFormat, if_neg hx] at h
  exact hx h

/-- A conversion keeps the sign, of a zero, an infinity and a NaN too. -/
@[simp] theorem realSign_toFormat (f : RealFmt) (x : Real64) : realSign (toFormat f x) = realSign x := by
  by_cases hx : realFinite x = true
  · rw [toFormat, if_pos hx, realNum, realNaN_of_finite hx, hx]
    by_cases hz : x = negZero64
    · simp [hz, Num.round]
    · simp only [Bool.false_eq_true, if_false, Bool.not_true, if_neg hz, Num.round]
      by_cases h0 : realRat x = 0
      · rw [h0, roundRat_zero, eq_zero_of_realRat hx hz h0]
      · rw [(roundRat_of_ne h0).2, sign_of_realRat hx h0]
  · rw [toFormat, if_neg hx]

/-- A magnitude of at most 1 is rounded to at most 1. -/
theorem roundMag_le_one {f : RealFmt} (hf : f.legal = true) {n d : Nat} (hn : 0 < n) (hd : 0 < d)
    (h : (n : Rat) / d ≤ 1) : roundMag f n d ≤ realMag one64 := by
  obtain ⟨p2, -, e2, -⟩ := (legal_iff f).1 hf
  obtain ⟨k, m, -, -, hx, dn, -, h2⟩ := roundMag_spec hf hn hd
  have hv : (n : Rat) / d * 2 ^ 1074 ≤ 2 ^ 1074 := mul_le_of_le_one_left (by positivity) h
  generalize (n : Rat) / d * 2 ^ 1074 = v at hv hx dn
  have units : magUnits (realMag one64) = 2 ^ 1074 := by decide +kernel
  generalize hN : (1074 : Nat) = N at hv units
  have hk : k ≤ N := by
    by_contra hgt
    rcases dn with e | e
    · simp only [leastPlace] at e; omega
    · have h1 : (2 : Rat) ≤ 2 ^ (f.precision - 1) := le_self_pow₀ (by norm_num) (by omega)
      have h3 : (2 : Rat) ^ N ≤ 2 ^ k := pow_le_pow_right₀ (by norm_num) (by omega)
      rw [le_div_iff₀ (by positivity)] at e
      have h4 : (0 : Rat) < 2 ^ k := by positivity
      have h5 := mul_le_mul_of_nonneg_right h1 h4.le
      linarith
  obtain ⟨j, rfl⟩ := Nat.exists_eq_add_of_le hk
  have hm : m ≤ 2 ^ j := by
    have hq : v / 2 ^ k ≤ 2 ^ j := by
      rw [div_le_iff₀ (by positivity), ← pow_add, add_comm]
      exact hv
    have := (abs_le.1 hx.1).2
    have : (m : Rat) < 2 ^ j + 1 := by linarith
    have : m < 2 ^ j + 1 := by exact_mod_cast this
    omega
  have hmk : m * 2 ^ k ≤ 2 ^ (k + j) := by
    rw [pow_add, mul_comm]
    exact Nat.mul_le_mul_left _ hm
  obtain ⟨-, hu⟩ := h2 (lt_of_le_of_lt hmk (Nat.pow_lt_pow_right (by norm_num) (by omega)))
  rw [← magUnits_strictMono.le_iff_le, hu, units]
  exact hmk

/-- A conversion keeps the duty fractions, the REALs between 0 and 1, among themselves (R281, R38). -/
theorem toFormat_unit {f : RealFmt} (hf : f.legal = true) {x : Real64} (h0 : realLe zero64 x = true)
    (h1 : realLe x one64 = true) :
    realLe zero64 (toFormat f x) = true ∧ realLe (toFormat f x) one64 = true := by
  have f0 : realFinite zero64 = true := by decide
  have f1 : realFinite one64 = true := by decide
  have hx := realFinite_of_between f0 f1 h0 h1
  rw [realLe_iff f0 hx, realRat_zero64] at h0
  rw [realLe_iff hx f1, realRat_one64] at h1
  rcases realNum_finite hx with e | e <;> rw [toFormat, if_pos hx, e, Num.round]
  · decide
  by_cases hz : realRat x = 0
  · rw [hz, roundRat_zero]; decide
  obtain ⟨hm, hs⟩ := roundRat_of_ne (f := f) hz
  have hle := roundMag_le_one hf (Int.natAbs_pos.2 (Rat.num_ne_zero.2 hz)) (realRat x).den_pos
    (by rwa [natAbs_div_den, abs_of_nonneg h0])
  rw [← hm] at hle
  rw [decide_eq_false (not_lt.2 h0)] at hs
  have k0 : realKey zero64 = 0 := by decide
  have k1 : realKey one64 = realMag one64 := by decide
  have n0 : realNaN zero64 = false := by decide
  have n1 : realNaN one64 = false := by decide
  have hn : realNaN (roundRat f (realRat x)) = false := by
    have : realMag one64 < infMag := by decide
    simp [realNaN]; omega
  have hk : realKey (roundRat f (realRat x)) = realMag (roundRat f (realRat x)) := by simp [realKey, hs]
  simp only [realLe, n0, n1, hn, k0, k1, hk]
  simp [hle]

end Sys2Proof.Machine
end

