-- ==== Sys2Proof/Laws/State.lean ====
section
/-! SUPPORT. What each whole-record update of the state leaves in each field: one lemma for each field that it leaves
alone or writes, true by `rfl`, so that no later proof unfolds a record update. -/

namespace Sys2Proof.Machine

variable (s : State)

/-! `reply` adds a response and changes nothing else. -/

@[simp] theorem State.reply_cfg (st : Status) (rs : List Val) : (s.reply st rs).cfg = s.cfg := rfl
@[simp] theorem State.reply_now (st : Status) (rs : List Val) : (s.reply st rs).now = s.now := rfl
@[simp] theorem State.reply_port (st : Status) (rs : List Val) : (s.reply st rs).port = s.port := rfl
@[simp] theorem State.reply_timers (st : Status) (rs : List Val) : (s.reply st rs).timers = s.timers := rfl
@[simp] theorem State.reply_pins (st : Status) (rs : List Val) : (s.reply st rs).pins = s.pins := rfl
@[simp] theorem State.reply_clk (st : Status) (rs : List Val) : (s.reply st rs).clk = s.clk := rfl
@[simp] theorem State.reply_adc (st : Status) (rs : List Val) : (s.reply st rs).adc = s.adc := rfl
@[simp] theorem State.reply_pwm (st : Status) (rs : List Val) : (s.reply st rs).pwm = s.pwm := rfl
@[simp] theorem State.reply_temp (st : Status) (rs : List Val) : (s.reply st rs).temp = s.temp := rfl
@[simp] theorem State.reply_range (st : Status) (rs : List Val) : (s.reply st rs).range = s.range := rfl
@[simp] theorem State.reply_flow (st : Status) (rs : List Val) : (s.reply st rs).flow = s.flow := rfl
@[simp] theorem State.reply_btn (st : Status) (rs : List Val) : (s.reply st rs).btn = s.btn := rfl
@[simp] theorem State.reply_pid (st : Status) (rs : List Val) : (s.reply st rs).pid = s.pid := rfl
@[simp] theorem State.reply_reg (st : Status) (rs : List Val) : (s.reply st rs).reg = s.reg := rfl
@[simp] theorem State.reply_ntf (st : Status) (rs : List Val) : (s.reply st rs).ntf = s.ntf := rfl
@[simp] theorem State.reply_outside (st : Status) (rs : List Val) : (s.reply st rs).outside = s.outside := rfl
@[simp] theorem State.reply_responses (st : Status) (rs : List Val) :
    (s.reply st rs).responses =
      s.responses ++ [{ status := st, results := rs }] := rfl
@[simp] theorem State.reply_bus (st : Status) (rs : List Val) : (s.reply st rs).bus = s.bus := rfl

/-! `raise` adds a response and changes nothing else (R602). -/

@[simp] theorem State.raise_cfg (st : Status) (rs : List Val) : (s.raise st rs).cfg = s.cfg := rfl
@[simp] theorem State.raise_now (st : Status) (rs : List Val) : (s.raise st rs).now = s.now := rfl
@[simp] theorem State.raise_port (st : Status) (rs : List Val) : (s.raise st rs).port = s.port := rfl
@[simp] theorem State.raise_timers (st : Status) (rs : List Val) : (s.raise st rs).timers = s.timers := rfl
@[simp] theorem State.raise_pins (st : Status) (rs : List Val) : (s.raise st rs).pins = s.pins := rfl
@[simp] theorem State.raise_clk (st : Status) (rs : List Val) : (s.raise st rs).clk = s.clk := rfl
@[simp] theorem State.raise_adc (st : Status) (rs : List Val) : (s.raise st rs).adc = s.adc := rfl
@[simp] theorem State.raise_pwm (st : Status) (rs : List Val) : (s.raise st rs).pwm = s.pwm := rfl
@[simp] theorem State.raise_temp (st : Status) (rs : List Val) : (s.raise st rs).temp = s.temp := rfl
@[simp] theorem State.raise_range (st : Status) (rs : List Val) : (s.raise st rs).range = s.range := rfl
@[simp] theorem State.raise_flow (st : Status) (rs : List Val) : (s.raise st rs).flow = s.flow := rfl
@[simp] theorem State.raise_btn (st : Status) (rs : List Val) : (s.raise st rs).btn = s.btn := rfl
@[simp] theorem State.raise_pid (st : Status) (rs : List Val) : (s.raise st rs).pid = s.pid := rfl
@[simp] theorem State.raise_reg (st : Status) (rs : List Val) : (s.raise st rs).reg = s.reg := rfl
@[simp] theorem State.raise_ntf (st : Status) (rs : List Val) : (s.raise st rs).ntf = s.ntf := rfl
@[simp] theorem State.raise_outside (st : Status) (rs : List Val) : (s.raise st rs).outside = s.outside := rfl
@[simp] theorem State.raise_responses (st : Status) (rs : List Val) :
    (s.raise st rs).responses =
      s.responses ++ [{ status := st, results := rs }] := rfl
@[simp] theorem State.raise_bus (st : Status) (rs : List Val) : (s.raise st rs).bus = s.bus := rfl

/-! `schedule` writes one timed action's due time. -/

@[simp] theorem State.schedule_cfg (a : Action) (due : Nat) : (s.schedule a due).cfg = s.cfg := rfl
@[simp] theorem State.schedule_now (a : Action) (due : Nat) : (s.schedule a due).now = s.now := rfl
@[simp] theorem State.schedule_port (a : Action) (due : Nat) : (s.schedule a due).port = s.port := rfl
@[simp] theorem State.schedule_timers (a : Action) (due : Nat) :
    (s.schedule a due).timers =
      s.timers.set a (some due) := rfl
@[simp] theorem State.schedule_pins (a : Action) (due : Nat) : (s.schedule a due).pins = s.pins := rfl
@[simp] theorem State.schedule_clk (a : Action) (due : Nat) : (s.schedule a due).clk = s.clk := rfl
@[simp] theorem State.schedule_adc (a : Action) (due : Nat) : (s.schedule a due).adc = s.adc := rfl
@[simp] theorem State.schedule_pwm (a : Action) (due : Nat) : (s.schedule a due).pwm = s.pwm := rfl
@[simp] theorem State.schedule_temp (a : Action) (due : Nat) : (s.schedule a due).temp = s.temp := rfl
@[simp] theorem State.schedule_range (a : Action) (due : Nat) : (s.schedule a due).range = s.range := rfl
@[simp] theorem State.schedule_flow (a : Action) (due : Nat) : (s.schedule a due).flow = s.flow := rfl
@[simp] theorem State.schedule_btn (a : Action) (due : Nat) : (s.schedule a due).btn = s.btn := rfl
@[simp] theorem State.schedule_pid (a : Action) (due : Nat) : (s.schedule a due).pid = s.pid := rfl
@[simp] theorem State.schedule_reg (a : Action) (due : Nat) : (s.schedule a due).reg = s.reg := rfl
@[simp] theorem State.schedule_ntf (a : Action) (due : Nat) : (s.schedule a due).ntf = s.ntf := rfl
@[simp] theorem State.schedule_outside (a : Action) (due : Nat) : (s.schedule a due).outside = s.outside := rfl
@[simp] theorem State.schedule_responses (a : Action) (due : Nat) : (s.schedule a due).responses = s.responses := rfl
@[simp] theorem State.schedule_bus (a : Action) (due : Nat) : (s.schedule a due).bus = s.bus := rfl

/-! `cancel` removes one timed action. -/

@[simp] theorem State.cancel_cfg (a : Action) : (s.cancel a).cfg = s.cfg := rfl
@[simp] theorem State.cancel_now (a : Action) : (s.cancel a).now = s.now := rfl
@[simp] theorem State.cancel_port (a : Action) : (s.cancel a).port = s.port := rfl
@[simp] theorem State.cancel_timers (a : Action) : (s.cancel a).timers = s.timers.set a none := rfl
@[simp] theorem State.cancel_pins (a : Action) : (s.cancel a).pins = s.pins := rfl
@[simp] theorem State.cancel_clk (a : Action) : (s.cancel a).clk = s.clk := rfl
@[simp] theorem State.cancel_adc (a : Action) : (s.cancel a).adc = s.adc := rfl
@[simp] theorem State.cancel_pwm (a : Action) : (s.cancel a).pwm = s.pwm := rfl
@[simp] theorem State.cancel_temp (a : Action) : (s.cancel a).temp = s.temp := rfl
@[simp] theorem State.cancel_range (a : Action) : (s.cancel a).range = s.range := rfl
@[simp] theorem State.cancel_flow (a : Action) : (s.cancel a).flow = s.flow := rfl
@[simp] theorem State.cancel_btn (a : Action) : (s.cancel a).btn = s.btn := rfl
@[simp] theorem State.cancel_pid (a : Action) : (s.cancel a).pid = s.pid := rfl
@[simp] theorem State.cancel_reg (a : Action) : (s.cancel a).reg = s.reg := rfl
@[simp] theorem State.cancel_ntf (a : Action) : (s.cancel a).ntf = s.ntf := rfl
@[simp] theorem State.cancel_outside (a : Action) : (s.cancel a).outside = s.outside := rfl
@[simp] theorem State.cancel_responses (a : Action) : (s.cancel a).responses = s.responses := rfl
@[simp] theorem State.cancel_bus (a : Action) : (s.cancel a).bus = s.bus := rfl

/-! `hold` writes the port only. -/

@[simp] theorem State.hold_cfg (op : HeldOp) : (s.hold op).cfg = s.cfg := rfl
@[simp] theorem State.hold_now (op : HeldOp) : (s.hold op).now = s.now := rfl
@[simp] theorem State.hold_port (op : HeldOp) :
    (s.hold op).port =
      .held { op := op, tAcc := s.now, tDl := none } := rfl
@[simp] theorem State.hold_timers (op : HeldOp) : (s.hold op).timers = s.timers := rfl
@[simp] theorem State.hold_pins (op : HeldOp) : (s.hold op).pins = s.pins := rfl
@[simp] theorem State.hold_clk (op : HeldOp) : (s.hold op).clk = s.clk := rfl
@[simp] theorem State.hold_adc (op : HeldOp) : (s.hold op).adc = s.adc := rfl
@[simp] theorem State.hold_pwm (op : HeldOp) : (s.hold op).pwm = s.pwm := rfl
@[simp] theorem State.hold_temp (op : HeldOp) : (s.hold op).temp = s.temp := rfl
@[simp] theorem State.hold_range (op : HeldOp) : (s.hold op).range = s.range := rfl
@[simp] theorem State.hold_flow (op : HeldOp) : (s.hold op).flow = s.flow := rfl
@[simp] theorem State.hold_btn (op : HeldOp) : (s.hold op).btn = s.btn := rfl
@[simp] theorem State.hold_pid (op : HeldOp) : (s.hold op).pid = s.pid := rfl
@[simp] theorem State.hold_reg (op : HeldOp) : (s.hold op).reg = s.reg := rfl
@[simp] theorem State.hold_ntf (op : HeldOp) : (s.hold op).ntf = s.ntf := rfl
@[simp] theorem State.hold_outside (op : HeldOp) : (s.hold op).outside = s.outside := rfl
@[simp] theorem State.hold_responses (op : HeldOp) : (s.hold op).responses = s.responses := rfl
@[simp] theorem State.hold_bus (op : HeldOp) : (s.hold op).bus = s.bus := rfl

/-! `holdUntil` writes the port and the host deadline. -/

@[simp] theorem State.holdUntil_cfg (op : HeldOp) (dl : Nat) : (s.holdUntil op dl).cfg = s.cfg := rfl
@[simp] theorem State.holdUntil_now (op : HeldOp) (dl : Nat) : (s.holdUntil op dl).now = s.now := rfl
@[simp] theorem State.holdUntil_port (op : HeldOp) (dl : Nat) :
    (s.holdUntil op dl).port =
      .held { op := op, tAcc := s.now, tDl := some dl } := rfl
@[simp] theorem State.holdUntil_timers (op : HeldOp) (dl : Nat) :
    (s.holdUntil op dl).timers =
      s.timers.set .hostDeadline (some dl) := rfl
@[simp] theorem State.holdUntil_pins (op : HeldOp) (dl : Nat) : (s.holdUntil op dl).pins = s.pins := rfl
@[simp] theorem State.holdUntil_clk (op : HeldOp) (dl : Nat) : (s.holdUntil op dl).clk = s.clk := rfl
@[simp] theorem State.holdUntil_adc (op : HeldOp) (dl : Nat) : (s.holdUntil op dl).adc = s.adc := rfl
@[simp] theorem State.holdUntil_pwm (op : HeldOp) (dl : Nat) : (s.holdUntil op dl).pwm = s.pwm := rfl
@[simp] theorem State.holdUntil_temp (op : HeldOp) (dl : Nat) : (s.holdUntil op dl).temp = s.temp := rfl
@[simp] theorem State.holdUntil_range (op : HeldOp) (dl : Nat) : (s.holdUntil op dl).range = s.range := rfl
@[simp] theorem State.holdUntil_flow (op : HeldOp) (dl : Nat) : (s.holdUntil op dl).flow = s.flow := rfl
@[simp] theorem State.holdUntil_btn (op : HeldOp) (dl : Nat) : (s.holdUntil op dl).btn = s.btn := rfl
@[simp] theorem State.holdUntil_pid (op : HeldOp) (dl : Nat) : (s.holdUntil op dl).pid = s.pid := rfl
@[simp] theorem State.holdUntil_reg (op : HeldOp) (dl : Nat) : (s.holdUntil op dl).reg = s.reg := rfl
@[simp] theorem State.holdUntil_ntf (op : HeldOp) (dl : Nat) : (s.holdUntil op dl).ntf = s.ntf := rfl
@[simp] theorem State.holdUntil_outside (op : HeldOp) (dl : Nat) : (s.holdUntil op dl).outside = s.outside := rfl
@[simp] theorem State.holdUntil_responses (op : HeldOp) (dl : Nat) : (s.holdUntil op dl).responses = s.responses := rfl
@[simp] theorem State.holdUntil_bus (op : HeldOp) (dl : Nat) : (s.holdUntil op dl).bus = s.bus := rfl

/-! `complete` frees the port, cancels the host deadline and adds a response (R40). -/

@[simp] theorem State.complete_cfg (st : Status) (rs : List Val) : (s.complete st rs).cfg = s.cfg := rfl
@[simp] theorem State.complete_now (st : Status) (rs : List Val) : (s.complete st rs).now = s.now := rfl
@[simp] theorem State.complete_port (st : Status) (rs : List Val) : (s.complete st rs).port = .idle := rfl
@[simp] theorem State.complete_timers (st : Status) (rs : List Val) :
    (s.complete st rs).timers =
      s.timers.set .hostDeadline none := rfl
@[simp] theorem State.complete_pins (st : Status) (rs : List Val) : (s.complete st rs).pins = s.pins := rfl
@[simp] theorem State.complete_clk (st : Status) (rs : List Val) : (s.complete st rs).clk = s.clk := rfl
@[simp] theorem State.complete_adc (st : Status) (rs : List Val) : (s.complete st rs).adc = s.adc := rfl
@[simp] theorem State.complete_pwm (st : Status) (rs : List Val) : (s.complete st rs).pwm = s.pwm := rfl
@[simp] theorem State.complete_temp (st : Status) (rs : List Val) : (s.complete st rs).temp = s.temp := rfl
@[simp] theorem State.complete_range (st : Status) (rs : List Val) : (s.complete st rs).range = s.range := rfl
@[simp] theorem State.complete_flow (st : Status) (rs : List Val) : (s.complete st rs).flow = s.flow := rfl
@[simp] theorem State.complete_btn (st : Status) (rs : List Val) : (s.complete st rs).btn = s.btn := rfl
@[simp] theorem State.complete_pid (st : Status) (rs : List Val) : (s.complete st rs).pid = s.pid := rfl
@[simp] theorem State.complete_reg (st : Status) (rs : List Val) : (s.complete st rs).reg = s.reg := rfl
@[simp] theorem State.complete_ntf (st : Status) (rs : List Val) : (s.complete st rs).ntf = s.ntf := rfl
@[simp] theorem State.complete_outside (st : Status) (rs : List Val) : (s.complete st rs).outside = s.outside := rfl
@[simp] theorem State.complete_responses (st : Status) (rs : List Val) :
    (s.complete st rs).responses =
      s.responses ++ [{ status := st, results := rs }] := rfl
@[simp] theorem State.complete_bus (st : Status) (rs : List Val) : (s.complete st rs).bus = s.bus := rfl

/-! `setPin` writes one pin. -/

@[simp] theorem State.setPin_cfg (p : Nat) (x : Pin) : (s.setPin p x).cfg = s.cfg := rfl
@[simp] theorem State.setPin_now (p : Nat) (x : Pin) : (s.setPin p x).now = s.now := rfl
@[simp] theorem State.setPin_port (p : Nat) (x : Pin) : (s.setPin p x).port = s.port := rfl
@[simp] theorem State.setPin_timers (p : Nat) (x : Pin) : (s.setPin p x).timers = s.timers := rfl
@[simp] theorem State.setPin_pins (p : Nat) (x : Pin) : (s.setPin p x).pins = s.pins.set p x := rfl
@[simp] theorem State.setPin_clk (p : Nat) (x : Pin) : (s.setPin p x).clk = s.clk := rfl
@[simp] theorem State.setPin_adc (p : Nat) (x : Pin) : (s.setPin p x).adc = s.adc := rfl
@[simp] theorem State.setPin_pwm (p : Nat) (x : Pin) : (s.setPin p x).pwm = s.pwm := rfl
@[simp] theorem State.setPin_temp (p : Nat) (x : Pin) : (s.setPin p x).temp = s.temp := rfl
@[simp] theorem State.setPin_range (p : Nat) (x : Pin) : (s.setPin p x).range = s.range := rfl
@[simp] theorem State.setPin_flow (p : Nat) (x : Pin) : (s.setPin p x).flow = s.flow := rfl
@[simp] theorem State.setPin_btn (p : Nat) (x : Pin) : (s.setPin p x).btn = s.btn := rfl
@[simp] theorem State.setPin_pid (p : Nat) (x : Pin) : (s.setPin p x).pid = s.pid := rfl
@[simp] theorem State.setPin_reg (p : Nat) (x : Pin) : (s.setPin p x).reg = s.reg := rfl
@[simp] theorem State.setPin_ntf (p : Nat) (x : Pin) : (s.setPin p x).ntf = s.ntf := rfl
@[simp] theorem State.setPin_outside (p : Nat) (x : Pin) : (s.setPin p x).outside = s.outside := rfl
@[simp] theorem State.setPin_responses (p : Nat) (x : Pin) : (s.setPin p x).responses = s.responses := rfl
@[simp] theorem State.setPin_bus (p : Nat) (x : Pin) : (s.setPin p x).bus = s.bus := rfl

/-! `pinOut` writes one pin's output latch. -/

@[simp] theorem State.pinOut_cfg (p : Nat) (level : Bool) : (s.pinOut p level).cfg = s.cfg := rfl
@[simp] theorem State.pinOut_now (p : Nat) (level : Bool) : (s.pinOut p level).now = s.now := rfl
@[simp] theorem State.pinOut_port (p : Nat) (level : Bool) : (s.pinOut p level).port = s.port := rfl
@[simp] theorem State.pinOut_timers (p : Nat) (level : Bool) : (s.pinOut p level).timers = s.timers := rfl
@[simp] theorem State.pinOut_pins (p : Nat) (level : Bool) :
    (s.pinOut p level).pins =
      s.pins.set p { s.pin p with outLevel := level } := rfl
@[simp] theorem State.pinOut_clk (p : Nat) (level : Bool) : (s.pinOut p level).clk = s.clk := rfl
@[simp] theorem State.pinOut_adc (p : Nat) (level : Bool) : (s.pinOut p level).adc = s.adc := rfl
@[simp] theorem State.pinOut_pwm (p : Nat) (level : Bool) : (s.pinOut p level).pwm = s.pwm := rfl
@[simp] theorem State.pinOut_temp (p : Nat) (level : Bool) : (s.pinOut p level).temp = s.temp := rfl
@[simp] theorem State.pinOut_range (p : Nat) (level : Bool) : (s.pinOut p level).range = s.range := rfl
@[simp] theorem State.pinOut_flow (p : Nat) (level : Bool) : (s.pinOut p level).flow = s.flow := rfl
@[simp] theorem State.pinOut_btn (p : Nat) (level : Bool) : (s.pinOut p level).btn = s.btn := rfl
@[simp] theorem State.pinOut_pid (p : Nat) (level : Bool) : (s.pinOut p level).pid = s.pid := rfl
@[simp] theorem State.pinOut_reg (p : Nat) (level : Bool) : (s.pinOut p level).reg = s.reg := rfl
@[simp] theorem State.pinOut_ntf (p : Nat) (level : Bool) : (s.pinOut p level).ntf = s.ntf := rfl
@[simp] theorem State.pinOut_outside (p : Nat) (level : Bool) : (s.pinOut p level).outside = s.outside := rfl
@[simp] theorem State.pinOut_responses (p : Nat) (level : Bool) : (s.pinOut p level).responses = s.responses := rfl
@[simp] theorem State.pinOut_bus (p : Nat) (level : Bool) : (s.pinOut p level).bus = s.bus := rfl

/-! `emit` writes the notification unit only (R462). -/

@[simp] theorem State.emit_cfg (n : Ntf) : (s.emit n).cfg = s.cfg := rfl
@[simp] theorem State.emit_now (n : Ntf) : (s.emit n).now = s.now := rfl
@[simp] theorem State.emit_port (n : Ntf) : (s.emit n).port = s.port := rfl
@[simp] theorem State.emit_timers (n : Ntf) : (s.emit n).timers = s.timers := rfl
@[simp] theorem State.emit_pins (n : Ntf) : (s.emit n).pins = s.pins := rfl
@[simp] theorem State.emit_clk (n : Ntf) : (s.emit n).clk = s.clk := rfl
@[simp] theorem State.emit_adc (n : Ntf) : (s.emit n).adc = s.adc := rfl
@[simp] theorem State.emit_pwm (n : Ntf) : (s.emit n).pwm = s.pwm := rfl
@[simp] theorem State.emit_temp (n : Ntf) : (s.emit n).temp = s.temp := rfl
@[simp] theorem State.emit_range (n : Ntf) : (s.emit n).range = s.range := rfl
@[simp] theorem State.emit_flow (n : Ntf) : (s.emit n).flow = s.flow := rfl
@[simp] theorem State.emit_btn (n : Ntf) : (s.emit n).btn = s.btn := rfl
@[simp] theorem State.emit_pid (n : Ntf) : (s.emit n).pid = s.pid := rfl
@[simp] theorem State.emit_reg (n : Ntf) : (s.emit n).reg = s.reg := rfl
@[simp] theorem State.emit_ntf (n : Ntf) : (s.emit n).ntf = s.ntf.emit s.cfg.ntfDepth n := rfl
@[simp] theorem State.emit_outside (n : Ntf) : (s.emit n).outside = s.outside := rfl
@[simp] theorem State.emit_responses (n : Ntf) : (s.emit n).responses = s.responses := rfl
@[simp] theorem State.emit_bus (n : Ntf) : (s.emit n).bus = s.bus := rfl

/-! `pwmset` writes the PWM's `frac` and `value` only (R281). -/

@[simp] theorem State.pwmSet_cfg (x : Real64) : (s.pwmSet x).cfg = s.cfg := rfl
@[simp] theorem State.pwmSet_now (x : Real64) : (s.pwmSet x).now = s.now := rfl
@[simp] theorem State.pwmSet_port (x : Real64) : (s.pwmSet x).port = s.port := rfl
@[simp] theorem State.pwmSet_timers (x : Real64) : (s.pwmSet x).timers = s.timers := rfl
@[simp] theorem State.pwmSet_pins (x : Real64) : (s.pwmSet x).pins = s.pins := rfl
@[simp] theorem State.pwmSet_clk (x : Real64) : (s.pwmSet x).clk = s.clk := rfl
@[simp] theorem State.pwmSet_adc (x : Real64) : (s.pwmSet x).adc = s.adc := rfl
@[simp] theorem State.pwmSet_pwm (x : Real64) :
    (s.pwmSet x).pwm =
      { s.pwm with frac := toFormat s.cfg.realFmt (clamp x zero64 one64), value := onTicks (toFormat s.cfg.realFmt (clamp x zero64 one64)) s.pwm.range } := rfl
@[simp] theorem State.pwmSet_temp (x : Real64) : (s.pwmSet x).temp = s.temp := rfl
@[simp] theorem State.pwmSet_range (x : Real64) : (s.pwmSet x).range = s.range := rfl
@[simp] theorem State.pwmSet_flow (x : Real64) : (s.pwmSet x).flow = s.flow := rfl
@[simp] theorem State.pwmSet_btn (x : Real64) : (s.pwmSet x).btn = s.btn := rfl
@[simp] theorem State.pwmSet_pid (x : Real64) : (s.pwmSet x).pid = s.pid := rfl
@[simp] theorem State.pwmSet_reg (x : Real64) : (s.pwmSet x).reg = s.reg := rfl
@[simp] theorem State.pwmSet_ntf (x : Real64) : (s.pwmSet x).ntf = s.ntf := rfl
@[simp] theorem State.pwmSet_outside (x : Real64) : (s.pwmSet x).outside = s.outside := rfl
@[simp] theorem State.pwmSet_responses (x : Real64) : (s.pwmSet x).responses = s.responses := rfl
@[simp] theorem State.pwmSet_bus (x : Real64) : (s.pwmSet x).bus = s.bus := rfl

/-! `publish` writes the published range sample only (R347). -/

@[simp] theorem State.publish_cfg (r : Real64) : (s.publish r).cfg = s.cfg := rfl
@[simp] theorem State.publish_now (r : Real64) : (s.publish r).now = s.now := rfl
@[simp] theorem State.publish_port (r : Real64) : (s.publish r).port = s.port := rfl
@[simp] theorem State.publish_timers (r : Real64) : (s.publish r).timers = s.timers := rfl
@[simp] theorem State.publish_pins (r : Real64) : (s.publish r).pins = s.pins := rfl
@[simp] theorem State.publish_clk (r : Real64) : (s.publish r).clk = s.clk := rfl
@[simp] theorem State.publish_adc (r : Real64) : (s.publish r).adc = s.adc := rfl
@[simp] theorem State.publish_pwm (r : Real64) : (s.publish r).pwm = s.pwm := rfl
@[simp] theorem State.publish_temp (r : Real64) : (s.publish r).temp = s.temp := rfl
@[simp] theorem State.publish_range (r : Real64) :
    (s.publish r).range =
      { s.range with filtered := r, count := s.range.count + 1, valid := true } := rfl
@[simp] theorem State.publish_flow (r : Real64) : (s.publish r).flow = s.flow := rfl
@[simp] theorem State.publish_btn (r : Real64) : (s.publish r).btn = s.btn := rfl
@[simp] theorem State.publish_pid (r : Real64) : (s.publish r).pid = s.pid := rfl
@[simp] theorem State.publish_reg (r : Real64) : (s.publish r).reg = s.reg := rfl
@[simp] theorem State.publish_ntf (r : Real64) : (s.publish r).ntf = s.ntf := rfl
@[simp] theorem State.publish_outside (r : Real64) : (s.publish r).outside = s.outside := rfl
@[simp] theorem State.publish_responses (r : Real64) : (s.publish r).responses = s.responses := rfl
@[simp] theorem State.publish_bus (r : Real64) : (s.publish r).bus = s.bus := rfl

/-! The decoder's handler writes the decoder only. -/

@[simp] theorem State.tempEdge_cfg (level : Bool) (ts : U32) : (s.tempEdge level ts).cfg = s.cfg := rfl
@[simp] theorem State.tempEdge_now (level : Bool) (ts : U32) : (s.tempEdge level ts).now = s.now := rfl
@[simp] theorem State.tempEdge_port (level : Bool) (ts : U32) : (s.tempEdge level ts).port = s.port := rfl
@[simp] theorem State.tempEdge_timers (level : Bool) (ts : U32) : (s.tempEdge level ts).timers = s.timers := rfl
@[simp] theorem State.tempEdge_pins (level : Bool) (ts : U32) : (s.tempEdge level ts).pins = s.pins := rfl
@[simp] theorem State.tempEdge_clk (level : Bool) (ts : U32) : (s.tempEdge level ts).clk = s.clk := rfl
@[simp] theorem State.tempEdge_adc (level : Bool) (ts : U32) : (s.tempEdge level ts).adc = s.adc := rfl
@[simp] theorem State.tempEdge_pwm (level : Bool) (ts : U32) : (s.tempEdge level ts).pwm = s.pwm := rfl
@[simp] theorem State.tempEdge_temp (level : Bool) (ts : U32) :
    (s.tempEdge level ts).temp =
      if level then s.temp.rise ts else s.temp.fall s.cfg ts := rfl
@[simp] theorem State.tempEdge_range (level : Bool) (ts : U32) : (s.tempEdge level ts).range = s.range := rfl
@[simp] theorem State.tempEdge_flow (level : Bool) (ts : U32) : (s.tempEdge level ts).flow = s.flow := rfl
@[simp] theorem State.tempEdge_btn (level : Bool) (ts : U32) : (s.tempEdge level ts).btn = s.btn := rfl
@[simp] theorem State.tempEdge_pid (level : Bool) (ts : U32) : (s.tempEdge level ts).pid = s.pid := rfl
@[simp] theorem State.tempEdge_reg (level : Bool) (ts : U32) : (s.tempEdge level ts).reg = s.reg := rfl
@[simp] theorem State.tempEdge_ntf (level : Bool) (ts : U32) : (s.tempEdge level ts).ntf = s.ntf := rfl
@[simp] theorem State.tempEdge_outside (level : Bool) (ts : U32) : (s.tempEdge level ts).outside = s.outside := rfl
@[simp] theorem State.tempEdge_responses (level : Bool) (ts : U32) : (s.tempEdge level ts).responses = s.responses := rfl
@[simp] theorem State.tempEdge_bus (level : Bool) (ts : U32) : (s.tempEdge level ts).bus = s.bus := rfl

/-! A measurement's start writes the range finder, TRIG and its timed action (R341). -/

@[simp] theorem State.measureStart_cfg (req : RangeReq) : (s.measureStart req).cfg = s.cfg := rfl
@[simp] theorem State.measureStart_now (req : RangeReq) : (s.measureStart req).now = s.now := rfl
@[simp] theorem State.measureStart_port (req : RangeReq) : (s.measureStart req).port = s.port := rfl
@[simp] theorem State.measureStart_timers (req : RangeReq) :
    (s.measureStart req).timers =
      s.timers.set .rangeTrigEnd (some (s.now + s.cfg.trigUs)) := rfl
@[simp] theorem State.measureStart_pins (req : RangeReq) :
    (s.measureStart req).pins =
      s.pins.set s.cfg.pinTrig { s.pin s.cfg.pinTrig with outLevel := true } := rfl
@[simp] theorem State.measureStart_clk (req : RangeReq) : (s.measureStart req).clk = s.clk := rfl
@[simp] theorem State.measureStart_adc (req : RangeReq) : (s.measureStart req).adc = s.adc := rfl
@[simp] theorem State.measureStart_pwm (req : RangeReq) : (s.measureStart req).pwm = s.pwm := rfl
@[simp] theorem State.measureStart_temp (req : RangeReq) : (s.measureStart req).temp = s.temp := rfl
@[simp] theorem State.measureStart_range (req : RangeReq) :
    (s.measureStart req).range =
      { s.range with req := req, phase := .trig, lastTrigger := some s.now } := rfl
@[simp] theorem State.measureStart_flow (req : RangeReq) : (s.measureStart req).flow = s.flow := rfl
@[simp] theorem State.measureStart_btn (req : RangeReq) : (s.measureStart req).btn = s.btn := rfl
@[simp] theorem State.measureStart_pid (req : RangeReq) : (s.measureStart req).pid = s.pid := rfl
@[simp] theorem State.measureStart_reg (req : RangeReq) : (s.measureStart req).reg = s.reg := rfl
@[simp] theorem State.measureStart_ntf (req : RangeReq) : (s.measureStart req).ntf = s.ntf := rfl
@[simp] theorem State.measureStart_outside (req : RangeReq) : (s.measureStart req).outside = s.outside := rfl
@[simp] theorem State.measureStart_responses (req : RangeReq) : (s.measureStart req).responses = s.responses := rfl
@[simp] theorem State.measureStart_bus (req : RangeReq) : (s.measureStart req).bus = s.bus := rfl

/-! The trigger's end writes the range finder, TRIG and the echo timeout (R341). -/

@[simp] theorem State.trigEnd_cfg : (s.trigEnd).cfg = s.cfg := rfl
@[simp] theorem State.trigEnd_now : (s.trigEnd).now = s.now := rfl
@[simp] theorem State.trigEnd_port : (s.trigEnd).port = s.port := rfl
@[simp] theorem State.trigEnd_timers :
    (s.trigEnd).timers =
      s.timers.set .rangeEchoTimeout (some (s.now + s.cfg.echoTimeoutUs)) := rfl
@[simp] theorem State.trigEnd_pins :
    (s.trigEnd).pins =
      s.pins.set s.cfg.pinTrig { s.pin s.cfg.pinTrig with outLevel := false } := rfl
@[simp] theorem State.trigEnd_clk : (s.trigEnd).clk = s.clk := rfl
@[simp] theorem State.trigEnd_adc : (s.trigEnd).adc = s.adc := rfl
@[simp] theorem State.trigEnd_pwm : (s.trigEnd).pwm = s.pwm := rfl
@[simp] theorem State.trigEnd_temp : (s.trigEnd).temp = s.temp := rfl
@[simp] theorem State.trigEnd_range :
    (s.trigEnd).range =
      { s.range with tTrigEnd := s.now, phase := .waitRise } := rfl
@[simp] theorem State.trigEnd_flow : (s.trigEnd).flow = s.flow := rfl
@[simp] theorem State.trigEnd_btn : (s.trigEnd).btn = s.btn := rfl
@[simp] theorem State.trigEnd_pid : (s.trigEnd).pid = s.pid := rfl
@[simp] theorem State.trigEnd_reg : (s.trigEnd).reg = s.reg := rfl
@[simp] theorem State.trigEnd_ntf : (s.trigEnd).ntf = s.ntf := rfl
@[simp] theorem State.trigEnd_outside : (s.trigEnd).outside = s.outside := rfl
@[simp] theorem State.trigEnd_responses : (s.trigEnd).responses = s.responses := rfl
@[simp] theorem State.trigEnd_bus : (s.trigEnd).bus = s.bus := rfl

/-! The sampler's start is a measurement's start (R344). -/

@[simp] theorem State.sampleStart_cfg : (s.sampleStart).cfg = s.cfg := rfl
@[simp] theorem State.sampleStart_now : (s.sampleStart).now = s.now := rfl
@[simp] theorem State.sampleStart_port : (s.sampleStart).port = s.port := rfl
@[simp] theorem State.sampleStart_timers :
    (s.sampleStart).timers =
      s.timers.set .rangeTrigEnd (some (s.now + s.cfg.trigUs)) := rfl
@[simp] theorem State.sampleStart_pins :
    (s.sampleStart).pins =
      s.pins.set s.cfg.pinTrig { s.pin s.cfg.pinTrig with outLevel := true } := rfl
@[simp] theorem State.sampleStart_clk : (s.sampleStart).clk = s.clk := rfl
@[simp] theorem State.sampleStart_adc : (s.sampleStart).adc = s.adc := rfl
@[simp] theorem State.sampleStart_pwm : (s.sampleStart).pwm = s.pwm := rfl
@[simp] theorem State.sampleStart_temp : (s.sampleStart).temp = s.temp := rfl
@[simp] theorem State.sampleStart_range :
    (s.sampleStart).range =
      { s.range with attempt := .first, req := .sampler, phase := .trig, lastTrigger := some s.now } := rfl
@[simp] theorem State.sampleStart_flow : (s.sampleStart).flow = s.flow := rfl
@[simp] theorem State.sampleStart_btn : (s.sampleStart).btn = s.btn := rfl
@[simp] theorem State.sampleStart_pid : (s.sampleStart).pid = s.pid := rfl
@[simp] theorem State.sampleStart_reg : (s.sampleStart).reg = s.reg := rfl
@[simp] theorem State.sampleStart_ntf : (s.sampleStart).ntf = s.ntf := rfl
@[simp] theorem State.sampleStart_outside : (s.sampleStart).outside = s.outside := rfl
@[simp] theorem State.sampleStart_responses : (s.sampleStart).responses = s.responses := rfl
@[simp] theorem State.sampleStart_bus : (s.sampleStart).bus = s.bus := rfl

/-! `next_sample` writes one timed action (R344). -/

@[simp] theorem State.nextSample_cfg : (s.nextSample).cfg = s.cfg := rfl
@[simp] theorem State.nextSample_now : (s.nextSample).now = s.now := rfl
@[simp] theorem State.nextSample_port : (s.nextSample).port = s.port := rfl
@[simp] theorem State.nextSample_timers : (s.nextSample).timers = s.timers.set .rangeSample (some s.startTime) := rfl
@[simp] theorem State.nextSample_pins : (s.nextSample).pins = s.pins := rfl
@[simp] theorem State.nextSample_clk : (s.nextSample).clk = s.clk := rfl
@[simp] theorem State.nextSample_adc : (s.nextSample).adc = s.adc := rfl
@[simp] theorem State.nextSample_pwm : (s.nextSample).pwm = s.pwm := rfl
@[simp] theorem State.nextSample_temp : (s.nextSample).temp = s.temp := rfl
@[simp] theorem State.nextSample_range : (s.nextSample).range = s.range := rfl
@[simp] theorem State.nextSample_flow : (s.nextSample).flow = s.flow := rfl
@[simp] theorem State.nextSample_btn : (s.nextSample).btn = s.btn := rfl
@[simp] theorem State.nextSample_pid : (s.nextSample).pid = s.pid := rfl
@[simp] theorem State.nextSample_reg : (s.nextSample).reg = s.reg := rfl
@[simp] theorem State.nextSample_ntf : (s.nextSample).ntf = s.ntf := rfl
@[simp] theorem State.nextSample_outside : (s.nextSample).outside = s.outside := rfl
@[simp] theorem State.nextSample_responses : (s.nextSample).responses = s.responses := rfl
@[simp] theorem State.nextSample_bus : (s.nextSample).bus = s.bus := rfl

/-! The idle action writes the flow counter and the notification unit (R371). -/

@[simp] theorem State.flowStop_cfg : (s.flowStop).cfg = s.cfg := rfl
@[simp] theorem State.flowStop_now : (s.flowStop).now = s.now := rfl
@[simp] theorem State.flowStop_port : (s.flowStop).port = s.port := rfl
@[simp] theorem State.flowStop_timers : (s.flowStop).timers = s.timers := rfl
@[simp] theorem State.flowStop_pins : (s.flowStop).pins = s.pins := rfl
@[simp] theorem State.flowStop_clk : (s.flowStop).clk = s.clk := rfl
@[simp] theorem State.flowStop_adc : (s.flowStop).adc = s.adc := rfl
@[simp] theorem State.flowStop_pwm : (s.flowStop).pwm = s.pwm := rfl
@[simp] theorem State.flowStop_temp : (s.flowStop).temp = s.temp := rfl
@[simp] theorem State.flowStop_range : (s.flowStop).range = s.range := rfl
@[simp] theorem State.flowStop_flow : (s.flowStop).flow = { s.flow with flowing := false } := rfl
@[simp] theorem State.flowStop_btn : (s.flowStop).btn = s.btn := rfl
@[simp] theorem State.flowStop_pid : (s.flowStop).pid = s.pid := rfl
@[simp] theorem State.flowStop_reg : (s.flowStop).reg = s.reg := rfl
@[simp] theorem State.flowStop_ntf :
    (s.flowStop).ntf =
      s.ntf.emit s.cfg.ntfDepth { kind := .flowStop, a := s.flow.count, b := 0, c := timestamp s.cfg s.now } := rfl
@[simp] theorem State.flowStop_outside : (s.flowStop).outside = s.outside := rfl
@[simp] theorem State.flowStop_responses : (s.flowStop).responses = s.responses := rfl
@[simp] theorem State.flowStop_bus : (s.flowStop).bus = s.bus := rfl

/-! Counting an edge writes the flow counter only (R370). -/

@[simp] theorem State.flowCount_cfg : (s.flowCount).cfg = s.cfg := rfl
@[simp] theorem State.flowCount_now : (s.flowCount).now = s.now := rfl
@[simp] theorem State.flowCount_port : (s.flowCount).port = s.port := rfl
@[simp] theorem State.flowCount_timers : (s.flowCount).timers = s.timers := rfl
@[simp] theorem State.flowCount_pins : (s.flowCount).pins = s.pins := rfl
@[simp] theorem State.flowCount_clk : (s.flowCount).clk = s.clk := rfl
@[simp] theorem State.flowCount_adc : (s.flowCount).adc = s.adc := rfl
@[simp] theorem State.flowCount_pwm : (s.flowCount).pwm = s.pwm := rfl
@[simp] theorem State.flowCount_temp : (s.flowCount).temp = s.temp := rfl
@[simp] theorem State.flowCount_range : (s.flowCount).range = s.range := rfl
@[simp] theorem State.flowCount_flow :
    (s.flowCount).flow =
      { s.flow with count := s.flow.count + 1, lastEdge := s.now } := rfl
@[simp] theorem State.flowCount_btn : (s.flowCount).btn = s.btn := rfl
@[simp] theorem State.flowCount_pid : (s.flowCount).pid = s.pid := rfl
@[simp] theorem State.flowCount_reg : (s.flowCount).reg = s.reg := rfl
@[simp] theorem State.flowCount_ntf : (s.flowCount).ntf = s.ntf := rfl
@[simp] theorem State.flowCount_outside : (s.flowCount).outside = s.outside := rfl
@[simp] theorem State.flowCount_responses : (s.flowCount).responses = s.responses := rfl
@[simp] theorem State.flowCount_bus : (s.flowCount).bus = s.bus := rfl

/-! `stop_procedure` writes the regulator, the PWM and the tick (R436). -/

@[simp] theorem State.stopProcedure_cfg : (s.stopProcedure).cfg = s.cfg := rfl
@[simp] theorem State.stopProcedure_now : (s.stopProcedure).now = s.now := rfl
@[simp] theorem State.stopProcedure_port : (s.stopProcedure).port = s.port := rfl
@[simp] theorem State.stopProcedure_timers : (s.stopProcedure).timers = s.timers.set .regTick none := rfl
@[simp] theorem State.stopProcedure_pins : (s.stopProcedure).pins = s.pins := rfl
@[simp] theorem State.stopProcedure_clk : (s.stopProcedure).clk = s.clk := rfl
@[simp] theorem State.stopProcedure_adc : (s.stopProcedure).adc = s.adc := rfl
@[simp] theorem State.stopProcedure_pwm :
    (s.stopProcedure).pwm =
      { s.pwm with frac := toFormat s.cfg.realFmt (clamp zero64 zero64 one64), value := onTicks (toFormat s.cfg.realFmt (clamp zero64 zero64 one64)) s.pwm.range } := rfl
@[simp] theorem State.stopProcedure_temp : (s.stopProcedure).temp = s.temp := rfl
@[simp] theorem State.stopProcedure_range : (s.stopProcedure).range = s.range := rfl
@[simp] theorem State.stopProcedure_flow : (s.stopProcedure).flow = s.flow := rfl
@[simp] theorem State.stopProcedure_btn : (s.stopProcedure).btn = s.btn := rfl
@[simp] theorem State.stopProcedure_pid : (s.stopProcedure).pid = s.pid := rfl
@[simp] theorem State.stopProcedure_reg :
    (s.stopProcedure).reg =
      { s.reg with state := .stopped, latestDrive := zero64 } := rfl
@[simp] theorem State.stopProcedure_ntf : (s.stopProcedure).ntf = s.ntf := rfl
@[simp] theorem State.stopProcedure_outside : (s.stopProcedure).outside = s.outside := rfl
@[simp] theorem State.stopProcedure_responses : (s.stopProcedure).responses = s.responses := rfl
@[simp] theorem State.stopProcedure_bus : (s.stopProcedure).bus = s.bus := rfl

/-! The abnormal exit is the stop procedure with the fault set (R437). -/

@[simp] theorem State.abnormalExit_cfg (temp : Real64) : (s.abnormalExit temp).cfg = s.cfg := rfl
@[simp] theorem State.abnormalExit_now (temp : Real64) : (s.abnormalExit temp).now = s.now := rfl
@[simp] theorem State.abnormalExit_port (temp : Real64) : (s.abnormalExit temp).port = s.port := rfl
@[simp] theorem State.abnormalExit_timers (temp : Real64) :
    (s.abnormalExit temp).timers =
      s.timers.set .regTick none := rfl
@[simp] theorem State.abnormalExit_pins (temp : Real64) : (s.abnormalExit temp).pins = s.pins := rfl
@[simp] theorem State.abnormalExit_clk (temp : Real64) : (s.abnormalExit temp).clk = s.clk := rfl
@[simp] theorem State.abnormalExit_adc (temp : Real64) : (s.abnormalExit temp).adc = s.adc := rfl
@[simp] theorem State.abnormalExit_pwm (temp : Real64) :
    (s.abnormalExit temp).pwm =
      { s.pwm with frac := toFormat s.cfg.realFmt (clamp zero64 zero64 one64), value := onTicks (toFormat s.cfg.realFmt (clamp zero64 zero64 one64)) s.pwm.range } := rfl
@[simp] theorem State.abnormalExit_temp (temp : Real64) : (s.abnormalExit temp).temp = s.temp := rfl
@[simp] theorem State.abnormalExit_range (temp : Real64) : (s.abnormalExit temp).range = s.range := rfl
@[simp] theorem State.abnormalExit_flow (temp : Real64) : (s.abnormalExit temp).flow = s.flow := rfl
@[simp] theorem State.abnormalExit_btn (temp : Real64) : (s.abnormalExit temp).btn = s.btn := rfl
@[simp] theorem State.abnormalExit_pid (temp : Real64) : (s.abnormalExit temp).pid = s.pid := rfl
@[simp] theorem State.abnormalExit_reg (temp : Real64) :
    (s.abnormalExit temp).reg =
      { s.reg with state := .stopped, latestDrive := zero64, fault := true, latestTemp := temp } := rfl
@[simp] theorem State.abnormalExit_ntf (temp : Real64) : (s.abnormalExit temp).ntf = s.ntf := rfl
@[simp] theorem State.abnormalExit_outside (temp : Real64) : (s.abnormalExit temp).outside = s.outside := rfl
@[simp] theorem State.abnormalExit_responses (temp : Real64) : (s.abnormalExit temp).responses = s.responses := rfl
@[simp] theorem State.abnormalExit_bus (temp : Real64) : (s.abnormalExit temp).bus = s.bus := rfl

/-! Steps 3 to 6 of a tick write the regulator, the PWM and the next tick (R431). -/

@[simp] theorem State.tickWrite_cfg (temp drive : Real64) : (s.tickWrite temp drive).cfg = s.cfg := rfl
@[simp] theorem State.tickWrite_now (temp drive : Real64) : (s.tickWrite temp drive).now = s.now := rfl
@[simp] theorem State.tickWrite_port (temp drive : Real64) : (s.tickWrite temp drive).port = s.port := rfl
@[simp] theorem State.tickWrite_timers (temp drive : Real64) :
    (s.tickWrite temp drive).timers =
      s.timers.set .regTick (some (s.reg.nextDue + s.reg.periodUs)) := rfl
@[simp] theorem State.tickWrite_pins (temp drive : Real64) : (s.tickWrite temp drive).pins = s.pins := rfl
@[simp] theorem State.tickWrite_clk (temp drive : Real64) : (s.tickWrite temp drive).clk = s.clk := rfl
@[simp] theorem State.tickWrite_adc (temp drive : Real64) : (s.tickWrite temp drive).adc = s.adc := rfl
@[simp] theorem State.tickWrite_pwm (temp drive : Real64) :
    (s.tickWrite temp drive).pwm =
      { s.pwm with frac := toFormat s.cfg.realFmt (clamp (s.gated drive) zero64 one64), value := onTicks (toFormat s.cfg.realFmt (clamp (s.gated drive) zero64 one64)) s.pwm.range } := rfl
@[simp] theorem State.tickWrite_temp (temp drive : Real64) : (s.tickWrite temp drive).temp = s.temp := rfl
@[simp] theorem State.tickWrite_range (temp drive : Real64) : (s.tickWrite temp drive).range = s.range := rfl
@[simp] theorem State.tickWrite_flow (temp drive : Real64) : (s.tickWrite temp drive).flow = s.flow := rfl
@[simp] theorem State.tickWrite_btn (temp drive : Real64) : (s.tickWrite temp drive).btn = s.btn := rfl
@[simp] theorem State.tickWrite_pid (temp drive : Real64) : (s.tickWrite temp drive).pid = s.pid := rfl
@[simp] theorem State.tickWrite_reg (temp drive : Real64) :
    (s.tickWrite temp drive).reg =
      { s.reg with latestTemp := temp, latestDrive := s.gated drive, nextDue := s.reg.nextDue + s.reg.periodUs } := rfl
@[simp] theorem State.tickWrite_ntf (temp drive : Real64) : (s.tickWrite temp drive).ntf = s.ntf := rfl
@[simp] theorem State.tickWrite_outside (temp drive : Real64) : (s.tickWrite temp drive).outside = s.outside := rfl
@[simp] theorem State.tickWrite_responses (temp drive : Real64) : (s.tickWrite temp drive).responses = s.responses := rfl
@[simp] theorem State.tickWrite_bus (temp drive : Real64) : (s.tickWrite temp drive).bus = s.bus := rfl

end Sys2Proof.Machine
end

