-- ==== Sys2Proof/Laws/Ops.lean ====
section
/-! SUPPORT. One lemma for each shared operation that says once what it can do: which fields it writes (its FRAME, an
equation that names them), which timed actions it touches, and what it answers. A later proof cites these and does not
unfold the operation. -/

namespace Sys2Proof.Machine

/-! ### Timed actions and pins -/

/-- Setting one timed action leaves the others alone. -/
@[simp] theorem Timers.get_set (t : Timers) (a b : Action) (due : Option Nat) :
    (t.set a due).get b = if b = a then due else t.get b := by
  cases a <;> cases b <;> rfl

/-- Two timer records with the same due times are equal. -/
theorem Timers.ext_get {t u : Timers} (h : ∀ a, t.get a = u.get a) : t = u := by
  have := h .hostDeadline; have := h .rangeSample; have := h .rangeRetry; have := h .rangeHostTrig
  have := h .rangeTrigEnd; have := h .rangeEchoTimeout; have := h .btnPoll; have := h .adcPoll
  have := h .regTick; have := h .flowIdle
  cases t; cases u; simp_all [Timers.get]

/-- `Action.all` is complete. -/
@[simp] theorem Action.mem_all (a : Action) : a ∈ Action.all := by cases a <;> decide

/-- Writing a pin that exists: it reads as written, every other pin as before. -/
theorem State.pin_setPin (s : State) (p q : Nat) (x : Pin) (h : p < s.pins.length) :
    (s.setPin p x).pin q = if q = p then x else s.pin q := by
  simp only [State.pin, State.setPin, List.getD_eq_getElem?_getD, List.getElem?_set]
  by_cases e : p = q
  · subst e; simp [h]
  · simp [e, Ne.symm e]

/-- Writing a pin that does not exist changes nothing. -/
theorem State.setPin_out (s : State) (p : Nat) (x : Pin) (h : s.pins.length ≤ p) : s.setPin p x = s := by
  simp [State.setPin, List.set_eq_of_length_le h]

/-! ### Draws and the I2C port -/

/-- A drawn level: the scripted one, or a free value; only `outside` changes. -/
theorem State.drawLevel_frame (s : State) : s.drawLevel.2 = { s with outside := s.drawLevel.2.outside } := by
  unfold State.drawLevel; split <;> rfl

/-- A formula's value: rounded once, or some NaN; only `outside` changes. -/
theorem State.freshReal_frame (s : State) (x : Num) :
    (s.freshReal x).2 = { s with outside := (s.freshReal x).2.outside } := by
  unfold State.freshReal; split <;> rfl

theorem State.freshReal_num (s : State) {x : Num} (h : x ≠ .nan) : s.freshReal x = (x.round s.cfg.realFmt, s) := by
  unfold State.freshReal; split
  · exact absurd rfl h
  · rfl

/-- A formula's value as a REAL field stores it: rounded once, or a free number; only `outside` changes. -/
theorem State.storedReal_frame (s : State) (x : Num) :
    (s.storedReal x).2 = { s with outside := (s.storedReal x).2.outside } := by
  unfold State.storedReal; split <;> rfl

theorem State.storedReal_num (s : State) {x : Num} (h : x ≠ .nan) : s.storedReal x = (x.round s.cfg.realFmt, s) := by
  unfold State.storedReal; split
  · exact absurd rfl h
  · rfl

theorem State.i2cWrite_frame (s : State) (bytes : Frame) :
    (s.i2cWrite bytes).2 = { s with outside := (s.i2cWrite bytes).2.outside, bus := (s.i2cWrite bytes).2.bus } := rfl

theorem State.writeReg_frame (s : State) (p : Byte) (v : BitVec 16) :
    (s.writeReg p v).2 = { s with outside := (s.writeReg p v).2.outside, bus := (s.writeReg p v).2.bus } := rfl

theorem State.readReg_frame (s : State) (p : Byte) :
    (s.readReg p).2 = { s with outside := (s.readReg p).2.outside, bus := (s.readReg p).2.bus } := by
  unfold State.readReg State.i2cWrite State.i2cRead; simp only; split <;> rfl

theorem State.probe_frame (s : State) :
    s.probe.2 = { s with outside := s.probe.2.outside, bus := s.probe.2.bus } := s.readReg_frame ptrConfig

theorem State.pwmLevel_frame (s : State) : s.pwmLevel.2 = { s with outside := s.pwmLevel.2.outside } := by
  unfold State.pwmLevel
  split
  · rfl
  · split
    · rfl
    · exact s.drawLevel_frame

theorem State.readPin_frame (s : State) (p : Nat) : (s.readPin p).2 = { s with outside := (s.readPin p).2.outside } := by
  unfold State.readPin
  split
  · exact s.pwmLevel_frame
  · split <;> rfl

theorem State.nextPick_frame (s : State) : s.nextPick.2 = { s with outside := s.nextPick.2.outside } := by
  unfold State.nextPick; split <;> rfl

/-! ### Timestamps -/

/-- At the default width a timestamp is `ts32` (R12, R30). -/
theorem timestamp_default {c : Config} (h : c.tsWidth = 32) (t : Nat) : timestamp c t = ts32 t := by
  unfold timestamp ts32; rw [h]; exact BitVec.eq_of_toNat_eq (by simp)

/-- At the default width a duration is the difference mod 2^32 (R30). -/
theorem duration_default {c : Config} (h : c.tsWidth = 32) (a b : U32) : duration c a b = b - a := by
  unfold duration; rw [h]; exact BitVec.eq_of_toNat_eq (by simp)

theorem duration_toNat (c : Config) (a b : U32) : (duration c a b).toNat = (b - a).toNat % 2 ^ c.tsWidth := by
  unfold duration
  rw [BitVec.toNat_ofNat]
  exact Nat.mod_eq_of_lt (lt_of_le_of_lt (Nat.mod_le _ _) (b - a).isLt)

/-! ### Register reads -/

/-- Everything a register read does (R105): the pointer write; after an ACK the two-byte read, whose bytes form the word. -/
theorem State.readReg_eq (s : State) (ptr : Byte) :
    s.readReg ptr =
      let w := s.outside.nextAck
      let s1 : State := { s with outside := w.2, bus := s.bus ++ [.write s.cfg.adcAddr [ptr] w.1] }
      if w.1 then
        let r := w.2.nextRead
        (r.1.map word16, { s1 with outside := r.2, bus := s1.bus ++ [.read s.cfg.adcAddr 2 r.1] })
      else (none, s1) := rfl

/-- Bit 15 of a register is bit 7 of the byte that travels first (R101, R255). -/
theorem conversionDone_word16 (bytes : Byte × Byte) : conversionDone (word16 bytes) = bytes.1.getLsbD 7 := by
  rw [conversionDone, word16, BitVec.getLsbD_append]; rfl

/-! ### Operand checks -/

/-- The write-class check of R201 passes exactly for a host pin. -/
theorem State.pinCheck_none (s : State) (pin : Byte) :
    s.pinCheck pin = none ↔ pin.toNat < s.cfg.npins ∧ (s.pin pin.toNat).owner = .host := by
  unfold State.pinCheck State.noSuchPin
  by_cases h : s.cfg.npins ≤ pin.toNat
  · simp [h]
  · by_cases h' : (s.pin pin.toNat).owner = .host
    · simp [h, h']; omega
    · simp [h, h']

/-! ### Notifications -/

/-- Everything `emit` can do to the unit (R461, R462). -/
theorem NtfUnit.emit_cases (d : Nat) (u : NtfUnit) (n : Ntf) :
    (u.enable.getLsbD n.kind.bit = false ∧ u.emit d n = u) ∨
    (u.enable.getLsbD n.kind.bit = true ∧ u.queue.length = d ∧ u.emit d n = { u with dropped := u.dropped + 1 }) ∨
    (u.enable.getLsbD n.kind.bit = true ∧ u.queue.length ≠ d ∧ u.emit d n = { u with queue := u.queue ++ [n] }) := by
  unfold NtfUnit.emit
  cases h : u.enable.getLsbD n.kind.bit <;> by_cases h' : u.queue.length = d <;> simp [h']

@[simp] theorem NtfUnit.emit_enable (d : Nat) (u : NtfUnit) (n : Ntf) : (u.emit d n).enable = u.enable := by
  rcases u.emit_cases d n with ⟨_, h⟩ | ⟨_, _, h⟩ | ⟨_, _, h⟩ <;> rw [h]

theorem NtfUnit.emit_length (d : Nat) (u : NtfUnit) (n : Ntf) (h : u.queue.length ≤ d) :
    (u.emit d n).queue.length ≤ d := by
  rcases u.emit_cases d n with ⟨_, e⟩ | ⟨_, _, e⟩ | ⟨_, _, e⟩ <;> rw [e]
  · exact h
  · exact h
  · simp; omega

/-! ### The flow counter -/

theorem State.flowEdge_frame (s : State) (ts : U32) :
    s.flowEdge ts = { s with
      flow := (s.flowEdge ts).flow
      ntf := (s.flowEdge ts).ntf
      timers := s.timers.set .flowIdle (some (s.now + s.cfg.flowIdleUs)) } := by
  unfold State.flowEdge State.flowTarget State.flowStart
  simp only
  split <;> split <;> rfl

/-! ### The buttons -/

/-- One button of `apply` writes its last change and the notification unit. -/
theorem State.applyButton_frame (s : State) (m : U32) (i : Nat) :
    s.applyButton m i = { s with
      btn := { s.btn with lastChange := (s.applyButton m i).btn.lastChange }
      ntf := (s.applyButton m i).ntf } := by
  unfold State.applyButton; split <;> rfl

theorem State.applyButtons_frame (m : U32) (l : List Nat) (s : State) :
    l.foldl (fun s i => s.applyButton m i) s = { s with
      btn := { s.btn with lastChange := (l.foldl (fun s i => s.applyButton m i) s).btn.lastChange }
      ntf := (l.foldl (fun s i => s.applyButton m i) s).ntf } := by
  induction l generalizing s with
  | nil => rfl
  | cons i l ih =>
    rw [List.foldl_cons, ih]
    rw [s.applyButton_frame m i]

/-- `apply` writes the mask, the last changes and the notification unit (R393). -/
theorem State.applyMask_frame (s : State) (m : U32) :
    s.applyMask m = { s with
      btn := { s.btn with mask := m, lastChange := (s.applyMask m).btn.lastChange }
      ntf := (s.applyMask m).ntf } := by
  unfold State.applyMask
  simp only
  rw [State.applyButtons_frame]

theorem State.ladderDone_frame (s : State) (v : Real64) :
    s.ladderDone v = { s with
      btn := { mask := ladder s.cfg.ladderTable v, lastChange := (s.ladderDone v).btn.lastChange, polling := false }
      ntf := (s.ladderDone v).ntf } := by
  unfold State.ladderDone
  simp only
  rw [State.applyMask_frame]

/-! ### The ADC master -/

/-- A delivery ends the hold of the command that waits, or updates the buttons (R255). -/
theorem State.deliver_frame (s : State) (req : AdcReq) (st : Status) (v : Real64) :
    s.deliver req st v = { s with
      port := (s.deliver req st v).port
      timers := (s.deliver req st v).timers
      responses := (s.deliver req st v).responses
      btn := (s.deliver req st v).btn
      ntf := (s.deliver req st v).ntf } := by
  unfold State.deliver
  split
  · rfl
  · rfl
  · rw [State.ladderDone_frame]

/-- Starting a request (R255): its first write is answered ACK, and its first poll is scheduled; or NACK, and it finishes
with IOERR and 0.0, and the next one starts. -/
theorem State.startNext_cons (s : State) (ch : BitVec 2) (req : AdcReq) (l : List (BitVec 2 × AdcReq)) :
    s.startNext ((ch, req) :: l) =
      if s.outside.nextAck.1 then
        State.schedule { s with
          adc := { s.adc with phase := .converting ch req s.now, queue := l }
          outside := s.outside.nextAck.2
          bus := s.bus ++ [.write s.cfg.adcAddr (ptrConfig :: bytes16 (adcConfigWord s.cfg ch)) true] } .adcPoll
          (s.now + s.cfg.adcPollUs)
      else
        (State.deliver { s with
          adc := { s.adc with phase := .idle, queue := l }
          outside := s.outside.nextAck.2
          bus := s.bus ++ [.write s.cfg.adcAddr (ptrConfig :: bytes16 (adcConfigWord s.cfg ch)) false] } req .ioerr
          zero64).startNext l := by
  conv_lhs => unfold State.startNext
  unfold State.writeReg State.i2cWrite
  cases h : s.outside.nextAck.1 <;> simp only [h, if_true, if_false, Bool.false_eq_true]

/-- Starting the next request writes the ADC and whatever its failed starts deliver. -/
theorem State.startNext_frame (l : List (BitVec 2 × AdcReq)) (s : State) :
    s.startNext l = { s with
      port := (s.startNext l).port
      timers := (s.startNext l).timers
      adc := (s.startNext l).adc
      btn := (s.startNext l).btn
      ntf := (s.startNext l).ntf
      outside := (s.startNext l).outside
      responses := (s.startNext l).responses
      bus := (s.startNext l).bus } := by
  induction l generalizing s with
  | nil => rfl
  | cons r l ih =>
    obtain ⟨ch, req⟩ := r
    unfold State.startNext
    simp only
    split
    · rfl
    · rw [ih, State.deliver_frame]; rfl

theorem State.finish_frame (s : State) (req : AdcReq) (st : Status) (v : Real64) :
    s.finish req st v = { s with
      port := (s.finish req st v).port
      timers := (s.finish req st v).timers
      adc := (s.finish req st v).adc
      btn := (s.finish req st v).btn
      ntf := (s.finish req st v).ntf
      outside := (s.finish req st v).outside
      responses := (s.finish req st v).responses
      bus := (s.finish req st v).bus } := by
  unfold State.finish
  simp only
  rw [State.startNext_frame, State.deliver_frame]

theorem State.request_frame (s : State) (ch : BitVec 2) (req : AdcReq) :
    s.request ch req = { s with
      port := (s.request ch req).port
      timers := (s.request ch req).timers
      adc := (s.request ch req).adc
      btn := (s.request ch req).btn
      ntf := (s.request ch req).ntf
      outside := (s.request ch req).outside
      responses := (s.request ch req).responses
      bus := (s.request ch req).bus } := by
  unfold State.request
  split
  · rw [State.startNext_frame]
  · rfl

theorem State.poll_frame (s : State) (req : AdcReq) (t0 : Nat) :
    s.poll req t0 = { s with
      port := (s.poll req t0).port
      timers := (s.poll req t0).timers
      adc := (s.poll req t0).adc
      btn := (s.poll req t0).btn
      ntf := (s.poll req t0).ntf
      outside := (s.poll req t0).outside
      responses := (s.poll req t0).responses
      bus := (s.poll req t0).bus } := by
  have f := s.readReg_frame ptrConfig
  unfold State.poll
  split
  · rename_i s1 h1
    rw [h1] at f; simp only at f
    rw [State.finish_frame, f]
  · rename_i c s1 h1
    rw [h1] at f; simp only at f
    split
    · have g := s1.readReg_frame ptrConversion
      split
      · rename_i s2 h2
        rw [h2] at g; simp only at g
        rw [State.finish_frame, g, f]
      · rename_i raw s2 h2
        rw [h2] at g; simp only at g
        rw [State.finish_frame, g, f]
    · split
      · rw [State.finish_frame, f]
      · rw [f]; rfl

theorem State.ladderPoll_frame (s : State) :
    s.ladderPoll = { s with
      port := s.ladderPoll.port
      timers := s.ladderPoll.timers
      adc := s.ladderPoll.adc
      btn := s.ladderPoll.btn
      ntf := s.ladderPoll.ntf
      outside := s.ladderPoll.outside
      responses := s.ladderPoll.responses
      bus := s.ladderPoll.bus } := by
  unfold State.ladderPoll
  split
  · rfl
  · simp only
    split
    · rw [State.ladderDone_frame]
    · rw [State.request_frame]

/-- The button unit's poll writes what its strategy writes: the buttons, and in LADDER mode what an ADC request does. -/
theorem State.btnPoll_frame (s : State) :
    s.btnPoll = { s with
      port := s.btnPoll.port
      timers := s.btnPoll.timers
      adc := s.btnPoll.adc
      btn := s.btnPoll.btn
      ntf := s.btnPoll.ntf
      outside := s.btnPoll.outside
      responses := s.btnPoll.responses
      bus := s.btnPoll.bus } := by
  unfold State.btnPoll
  split
  · rw [State.applyMask_frame]; rfl
  · rw [State.ladderPoll_frame]; rfl

/-! ### The range finder -/

theorem State.hostResult_frame (s : State) (r : Real64) (timedOut : Bool) :
    s.hostResult r timedOut = { s with
      port := (s.hostResult r timedOut).port
      timers := (s.hostResult r timedOut).timers
      range := (s.hostResult r timedOut).range
      responses := (s.hostResult r timedOut).responses } := by
  unfold State.hostResult
  repeat' split
  all_goals rfl

theorem State.completeReady_frame (s : State) :
    s.completeReady = { s with
      port := s.completeReady.port
      timers := s.completeReady.timers
      responses := s.completeReady.responses } := by
  unfold State.completeReady
  split <;> rfl

theorem State.samplerResult_frame (s : State) (r : Real64) :
    s.samplerResult r = { s with
      port := (s.samplerResult r).port
      timers := (s.samplerResult r).timers
      range := (s.samplerResult r).range
      outside := (s.samplerResult r).outside
      responses := (s.samplerResult r).responses } := by
  unfold State.samplerResult
  split
  · rw [State.completeReady_frame]; rfl
  · split
    · rfl
    · simp only
      rw [State.storedReal_frame]; rfl

theorem State.measureDone_frame (s : State) (r : Real64) (timedOut : Bool) :
    s.measureDone r timedOut = { s with
      port := (s.measureDone r timedOut).port
      timers := (s.measureDone r timedOut).timers
      range := (s.measureDone r timedOut).range
      outside := (s.measureDone r timedOut).outside
      responses := (s.measureDone r timedOut).responses } := by
  unfold State.measureDone
  simp only
  split
  · rw [State.hostResult_frame]
  · rw [State.samplerResult_frame]

theorem State.echoTimeout_frame (s : State) :
    s.echoTimeout = { s with
      port := s.echoTimeout.port
      timers := s.echoTimeout.timers
      range := s.echoTimeout.range
      outside := s.echoTimeout.outside
      responses := s.echoTimeout.responses } := s.measureDone_frame zero64 true

theorem State.echoEdge_frame (s : State) (level : Bool) (ts : U32) :
    s.echoEdge level ts = { s with
      port := (s.echoEdge level ts).port
      timers := (s.echoEdge level ts).timers
      range := (s.echoEdge level ts).range
      outside := (s.echoEdge level ts).outside
      responses := (s.echoEdge level ts).responses } := by
  unfold State.echoEdge
  split
  · rfl
  · split
    · rw [State.measureDone_frame]; rfl
    · rfl

/-! ### The dispatch of an EdgeEvent -/

theorem State.ownerHandler_frame (s : State) (ev : EdgeEvent) :
    s.ownerHandler ev = { s with
      port := (s.ownerHandler ev).port
      timers := (s.ownerHandler ev).timers
      temp := (s.ownerHandler ev).temp
      range := (s.ownerHandler ev).range
      flow := (s.ownerHandler ev).flow
      ntf := (s.ownerHandler ev).ntf
      outside := (s.ownerHandler ev).outside
      responses := (s.ownerHandler ev).responses } := by
  unfold State.ownerHandler
  split
  · rfl
  · rw [State.echoEdge_frame]
  · rw [State.flowEdge_frame]
  all_goals rfl

theorem State.waitEdgeDone_frame (s : State) (ev : EdgeEvent) :
    s.waitEdgeDone ev = { s with
      port := (s.waitEdgeDone ev).port
      timers := (s.waitEdgeDone ev).timers
      responses := (s.waitEdgeDone ev).responses } := by
  unfold State.waitEdgeDone
  repeat' split
  all_goals rfl

theorem State.notifyEdge_frame (s : State) (ev : EdgeEvent) :
    s.notifyEdge ev = { s with ntf := (s.notifyEdge ev).ntf } := by
  unfold State.notifyEdge
  split <;> rfl

/-- A dispatch leaves the pins, the clock, the ADC, the PWM, the buttons, the PID and the regulator alone (R214). -/
theorem State.dispatch_frame (s : State) (ev : EdgeEvent) :
    s.dispatch ev = { s with
      port := (s.dispatch ev).port
      timers := (s.dispatch ev).timers
      temp := (s.dispatch ev).temp
      range := (s.dispatch ev).range
      flow := (s.dispatch ev).flow
      ntf := (s.dispatch ev).ntf
      outside := (s.dispatch ev).outside
      responses := (s.dispatch ev).responses } := by
  unfold State.dispatch
  rw [State.notifyEdge_frame, State.waitEdgeDone_frame, State.ownerHandler_frame]

/-! ### The regulator -/

theorem State.regTick_frame (s : State) :
    s.regTick = { s with
      timers := s.regTick.timers
      pid := s.regTick.pid
      pwm := s.regTick.pwm
      reg := s.regTick.reg } := by
  unfold State.regTick
  simp only
  split
  · rfl
  · split <;> rfl

end Sys2Proof.Machine
end

