-- ==== Sys2Proof/Laws/Frames.lean ====
section
/-! SUPPORT. The frames of Laws/Ops.lean field by field: each field that a shared operation leaves alone, tagged for
`simp`. -/

namespace Sys2Proof.Machine

variable (s : State)

@[simp] theorem State.drawLevel_cfg : (s.drawLevel).2.cfg = s.cfg := by rw [State.drawLevel_frame]
@[simp] theorem State.drawLevel_now : (s.drawLevel).2.now = s.now := by rw [State.drawLevel_frame]
@[simp] theorem State.drawLevel_port : (s.drawLevel).2.port = s.port := by rw [State.drawLevel_frame]
@[simp] theorem State.drawLevel_timers : (s.drawLevel).2.timers = s.timers := by rw [State.drawLevel_frame]
@[simp] theorem State.drawLevel_pins : (s.drawLevel).2.pins = s.pins := by rw [State.drawLevel_frame]
@[simp] theorem State.drawLevel_clk : (s.drawLevel).2.clk = s.clk := by rw [State.drawLevel_frame]
@[simp] theorem State.drawLevel_adc : (s.drawLevel).2.adc = s.adc := by rw [State.drawLevel_frame]
@[simp] theorem State.drawLevel_pwm : (s.drawLevel).2.pwm = s.pwm := by rw [State.drawLevel_frame]
@[simp] theorem State.drawLevel_temp : (s.drawLevel).2.temp = s.temp := by rw [State.drawLevel_frame]
@[simp] theorem State.drawLevel_range : (s.drawLevel).2.range = s.range := by rw [State.drawLevel_frame]
@[simp] theorem State.drawLevel_flow : (s.drawLevel).2.flow = s.flow := by rw [State.drawLevel_frame]
@[simp] theorem State.drawLevel_btn : (s.drawLevel).2.btn = s.btn := by rw [State.drawLevel_frame]
@[simp] theorem State.drawLevel_pid : (s.drawLevel).2.pid = s.pid := by rw [State.drawLevel_frame]
@[simp] theorem State.drawLevel_reg : (s.drawLevel).2.reg = s.reg := by rw [State.drawLevel_frame]
@[simp] theorem State.drawLevel_ntf : (s.drawLevel).2.ntf = s.ntf := by rw [State.drawLevel_frame]
@[simp] theorem State.drawLevel_responses : (s.drawLevel).2.responses = s.responses := by rw [State.drawLevel_frame]
@[simp] theorem State.drawLevel_bus : (s.drawLevel).2.bus = s.bus := by rw [State.drawLevel_frame]

@[simp] theorem State.freshReal_cfg (x : Num) : (s.freshReal x).2.cfg = s.cfg := by rw [State.freshReal_frame]
@[simp] theorem State.freshReal_now (x : Num) : (s.freshReal x).2.now = s.now := by rw [State.freshReal_frame]
@[simp] theorem State.freshReal_port (x : Num) : (s.freshReal x).2.port = s.port := by rw [State.freshReal_frame]
@[simp] theorem State.freshReal_timers (x : Num) : (s.freshReal x).2.timers = s.timers := by rw [State.freshReal_frame]
@[simp] theorem State.freshReal_pins (x : Num) : (s.freshReal x).2.pins = s.pins := by rw [State.freshReal_frame]
@[simp] theorem State.freshReal_clk (x : Num) : (s.freshReal x).2.clk = s.clk := by rw [State.freshReal_frame]
@[simp] theorem State.freshReal_adc (x : Num) : (s.freshReal x).2.adc = s.adc := by rw [State.freshReal_frame]
@[simp] theorem State.freshReal_pwm (x : Num) : (s.freshReal x).2.pwm = s.pwm := by rw [State.freshReal_frame]
@[simp] theorem State.freshReal_temp (x : Num) : (s.freshReal x).2.temp = s.temp := by rw [State.freshReal_frame]
@[simp] theorem State.freshReal_range (x : Num) : (s.freshReal x).2.range = s.range := by rw [State.freshReal_frame]
@[simp] theorem State.freshReal_flow (x : Num) : (s.freshReal x).2.flow = s.flow := by rw [State.freshReal_frame]
@[simp] theorem State.freshReal_btn (x : Num) : (s.freshReal x).2.btn = s.btn := by rw [State.freshReal_frame]
@[simp] theorem State.freshReal_pid (x : Num) : (s.freshReal x).2.pid = s.pid := by rw [State.freshReal_frame]
@[simp] theorem State.freshReal_reg (x : Num) : (s.freshReal x).2.reg = s.reg := by rw [State.freshReal_frame]
@[simp] theorem State.freshReal_ntf (x : Num) : (s.freshReal x).2.ntf = s.ntf := by rw [State.freshReal_frame]
@[simp] theorem State.freshReal_responses (x : Num) : (s.freshReal x).2.responses = s.responses := by rw [State.freshReal_frame]
@[simp] theorem State.freshReal_bus (x : Num) : (s.freshReal x).2.bus = s.bus := by rw [State.freshReal_frame]

@[simp] theorem State.storedReal_cfg (x : Num) : (s.storedReal x).2.cfg = s.cfg := by rw [State.storedReal_frame]
@[simp] theorem State.storedReal_now (x : Num) : (s.storedReal x).2.now = s.now := by rw [State.storedReal_frame]
@[simp] theorem State.storedReal_port (x : Num) : (s.storedReal x).2.port = s.port := by rw [State.storedReal_frame]
@[simp] theorem State.storedReal_timers (x : Num) : (s.storedReal x).2.timers = s.timers := by rw [State.storedReal_frame]
@[simp] theorem State.storedReal_pins (x : Num) : (s.storedReal x).2.pins = s.pins := by rw [State.storedReal_frame]
@[simp] theorem State.storedReal_clk (x : Num) : (s.storedReal x).2.clk = s.clk := by rw [State.storedReal_frame]
@[simp] theorem State.storedReal_adc (x : Num) : (s.storedReal x).2.adc = s.adc := by rw [State.storedReal_frame]
@[simp] theorem State.storedReal_pwm (x : Num) : (s.storedReal x).2.pwm = s.pwm := by rw [State.storedReal_frame]
@[simp] theorem State.storedReal_temp (x : Num) : (s.storedReal x).2.temp = s.temp := by rw [State.storedReal_frame]
@[simp] theorem State.storedReal_range (x : Num) : (s.storedReal x).2.range = s.range := by rw [State.storedReal_frame]
@[simp] theorem State.storedReal_flow (x : Num) : (s.storedReal x).2.flow = s.flow := by rw [State.storedReal_frame]
@[simp] theorem State.storedReal_btn (x : Num) : (s.storedReal x).2.btn = s.btn := by rw [State.storedReal_frame]
@[simp] theorem State.storedReal_pid (x : Num) : (s.storedReal x).2.pid = s.pid := by rw [State.storedReal_frame]
@[simp] theorem State.storedReal_reg (x : Num) : (s.storedReal x).2.reg = s.reg := by rw [State.storedReal_frame]
@[simp] theorem State.storedReal_ntf (x : Num) : (s.storedReal x).2.ntf = s.ntf := by rw [State.storedReal_frame]
@[simp] theorem State.storedReal_responses (x : Num) : (s.storedReal x).2.responses = s.responses := by rw [State.storedReal_frame]
@[simp] theorem State.storedReal_bus (x : Num) : (s.storedReal x).2.bus = s.bus := by rw [State.storedReal_frame]

@[simp] theorem State.i2cWrite_cfg (bytes : Frame) : (s.i2cWrite bytes).2.cfg = s.cfg := by rw [State.i2cWrite_frame]
@[simp] theorem State.i2cWrite_now (bytes : Frame) : (s.i2cWrite bytes).2.now = s.now := by rw [State.i2cWrite_frame]
@[simp] theorem State.i2cWrite_port (bytes : Frame) : (s.i2cWrite bytes).2.port = s.port := by rw [State.i2cWrite_frame]
@[simp] theorem State.i2cWrite_timers (bytes : Frame) : (s.i2cWrite bytes).2.timers = s.timers := by rw [State.i2cWrite_frame]
@[simp] theorem State.i2cWrite_pins (bytes : Frame) : (s.i2cWrite bytes).2.pins = s.pins := by rw [State.i2cWrite_frame]
@[simp] theorem State.i2cWrite_clk (bytes : Frame) : (s.i2cWrite bytes).2.clk = s.clk := by rw [State.i2cWrite_frame]
@[simp] theorem State.i2cWrite_adc (bytes : Frame) : (s.i2cWrite bytes).2.adc = s.adc := by rw [State.i2cWrite_frame]
@[simp] theorem State.i2cWrite_pwm (bytes : Frame) : (s.i2cWrite bytes).2.pwm = s.pwm := by rw [State.i2cWrite_frame]
@[simp] theorem State.i2cWrite_temp (bytes : Frame) : (s.i2cWrite bytes).2.temp = s.temp := by rw [State.i2cWrite_frame]
@[simp] theorem State.i2cWrite_range (bytes : Frame) : (s.i2cWrite bytes).2.range = s.range := by rw [State.i2cWrite_frame]
@[simp] theorem State.i2cWrite_flow (bytes : Frame) : (s.i2cWrite bytes).2.flow = s.flow := by rw [State.i2cWrite_frame]
@[simp] theorem State.i2cWrite_btn (bytes : Frame) : (s.i2cWrite bytes).2.btn = s.btn := by rw [State.i2cWrite_frame]
@[simp] theorem State.i2cWrite_pid (bytes : Frame) : (s.i2cWrite bytes).2.pid = s.pid := by rw [State.i2cWrite_frame]
@[simp] theorem State.i2cWrite_reg (bytes : Frame) : (s.i2cWrite bytes).2.reg = s.reg := by rw [State.i2cWrite_frame]
@[simp] theorem State.i2cWrite_ntf (bytes : Frame) : (s.i2cWrite bytes).2.ntf = s.ntf := by rw [State.i2cWrite_frame]
@[simp] theorem State.i2cWrite_responses (bytes : Frame) : (s.i2cWrite bytes).2.responses = s.responses := by rw [State.i2cWrite_frame]

@[simp] theorem State.writeReg_cfg (p : Byte) (v : BitVec 16) : (s.writeReg p v).2.cfg = s.cfg := by rw [State.writeReg_frame]
@[simp] theorem State.writeReg_now (p : Byte) (v : BitVec 16) : (s.writeReg p v).2.now = s.now := by rw [State.writeReg_frame]
@[simp] theorem State.writeReg_port (p : Byte) (v : BitVec 16) : (s.writeReg p v).2.port = s.port := by rw [State.writeReg_frame]
@[simp] theorem State.writeReg_timers (p : Byte) (v : BitVec 16) : (s.writeReg p v).2.timers = s.timers := by rw [State.writeReg_frame]
@[simp] theorem State.writeReg_pins (p : Byte) (v : BitVec 16) : (s.writeReg p v).2.pins = s.pins := by rw [State.writeReg_frame]
@[simp] theorem State.writeReg_clk (p : Byte) (v : BitVec 16) : (s.writeReg p v).2.clk = s.clk := by rw [State.writeReg_frame]
@[simp] theorem State.writeReg_adc (p : Byte) (v : BitVec 16) : (s.writeReg p v).2.adc = s.adc := by rw [State.writeReg_frame]
@[simp] theorem State.writeReg_pwm (p : Byte) (v : BitVec 16) : (s.writeReg p v).2.pwm = s.pwm := by rw [State.writeReg_frame]
@[simp] theorem State.writeReg_temp (p : Byte) (v : BitVec 16) : (s.writeReg p v).2.temp = s.temp := by rw [State.writeReg_frame]
@[simp] theorem State.writeReg_range (p : Byte) (v : BitVec 16) : (s.writeReg p v).2.range = s.range := by rw [State.writeReg_frame]
@[simp] theorem State.writeReg_flow (p : Byte) (v : BitVec 16) : (s.writeReg p v).2.flow = s.flow := by rw [State.writeReg_frame]
@[simp] theorem State.writeReg_btn (p : Byte) (v : BitVec 16) : (s.writeReg p v).2.btn = s.btn := by rw [State.writeReg_frame]
@[simp] theorem State.writeReg_pid (p : Byte) (v : BitVec 16) : (s.writeReg p v).2.pid = s.pid := by rw [State.writeReg_frame]
@[simp] theorem State.writeReg_reg (p : Byte) (v : BitVec 16) : (s.writeReg p v).2.reg = s.reg := by rw [State.writeReg_frame]
@[simp] theorem State.writeReg_ntf (p : Byte) (v : BitVec 16) : (s.writeReg p v).2.ntf = s.ntf := by rw [State.writeReg_frame]
@[simp] theorem State.writeReg_responses (p : Byte) (v : BitVec 16) : (s.writeReg p v).2.responses = s.responses := by rw [State.writeReg_frame]

@[simp] theorem State.readReg_cfg (p : Byte) : (s.readReg p).2.cfg = s.cfg := by rw [State.readReg_frame]
@[simp] theorem State.readReg_now (p : Byte) : (s.readReg p).2.now = s.now := by rw [State.readReg_frame]
@[simp] theorem State.readReg_port (p : Byte) : (s.readReg p).2.port = s.port := by rw [State.readReg_frame]
@[simp] theorem State.readReg_timers (p : Byte) : (s.readReg p).2.timers = s.timers := by rw [State.readReg_frame]
@[simp] theorem State.readReg_pins (p : Byte) : (s.readReg p).2.pins = s.pins := by rw [State.readReg_frame]
@[simp] theorem State.readReg_clk (p : Byte) : (s.readReg p).2.clk = s.clk := by rw [State.readReg_frame]
@[simp] theorem State.readReg_adc (p : Byte) : (s.readReg p).2.adc = s.adc := by rw [State.readReg_frame]
@[simp] theorem State.readReg_pwm (p : Byte) : (s.readReg p).2.pwm = s.pwm := by rw [State.readReg_frame]
@[simp] theorem State.readReg_temp (p : Byte) : (s.readReg p).2.temp = s.temp := by rw [State.readReg_frame]
@[simp] theorem State.readReg_range (p : Byte) : (s.readReg p).2.range = s.range := by rw [State.readReg_frame]
@[simp] theorem State.readReg_flow (p : Byte) : (s.readReg p).2.flow = s.flow := by rw [State.readReg_frame]
@[simp] theorem State.readReg_btn (p : Byte) : (s.readReg p).2.btn = s.btn := by rw [State.readReg_frame]
@[simp] theorem State.readReg_pid (p : Byte) : (s.readReg p).2.pid = s.pid := by rw [State.readReg_frame]
@[simp] theorem State.readReg_reg (p : Byte) : (s.readReg p).2.reg = s.reg := by rw [State.readReg_frame]
@[simp] theorem State.readReg_ntf (p : Byte) : (s.readReg p).2.ntf = s.ntf := by rw [State.readReg_frame]
@[simp] theorem State.readReg_responses (p : Byte) : (s.readReg p).2.responses = s.responses := by rw [State.readReg_frame]

@[simp] theorem State.probe_cfg : (s.probe).2.cfg = s.cfg := by rw [State.probe_frame]
@[simp] theorem State.probe_now : (s.probe).2.now = s.now := by rw [State.probe_frame]
@[simp] theorem State.probe_port : (s.probe).2.port = s.port := by rw [State.probe_frame]
@[simp] theorem State.probe_timers : (s.probe).2.timers = s.timers := by rw [State.probe_frame]
@[simp] theorem State.probe_pins : (s.probe).2.pins = s.pins := by rw [State.probe_frame]
@[simp] theorem State.probe_clk : (s.probe).2.clk = s.clk := by rw [State.probe_frame]
@[simp] theorem State.probe_adc : (s.probe).2.adc = s.adc := by rw [State.probe_frame]
@[simp] theorem State.probe_pwm : (s.probe).2.pwm = s.pwm := by rw [State.probe_frame]
@[simp] theorem State.probe_temp : (s.probe).2.temp = s.temp := by rw [State.probe_frame]
@[simp] theorem State.probe_range : (s.probe).2.range = s.range := by rw [State.probe_frame]
@[simp] theorem State.probe_flow : (s.probe).2.flow = s.flow := by rw [State.probe_frame]
@[simp] theorem State.probe_btn : (s.probe).2.btn = s.btn := by rw [State.probe_frame]
@[simp] theorem State.probe_pid : (s.probe).2.pid = s.pid := by rw [State.probe_frame]
@[simp] theorem State.probe_reg : (s.probe).2.reg = s.reg := by rw [State.probe_frame]
@[simp] theorem State.probe_ntf : (s.probe).2.ntf = s.ntf := by rw [State.probe_frame]
@[simp] theorem State.probe_responses : (s.probe).2.responses = s.responses := by rw [State.probe_frame]

@[simp] theorem State.pwmLevel_cfg : (s.pwmLevel).2.cfg = s.cfg := by rw [State.pwmLevel_frame]
@[simp] theorem State.pwmLevel_now : (s.pwmLevel).2.now = s.now := by rw [State.pwmLevel_frame]
@[simp] theorem State.pwmLevel_port : (s.pwmLevel).2.port = s.port := by rw [State.pwmLevel_frame]
@[simp] theorem State.pwmLevel_timers : (s.pwmLevel).2.timers = s.timers := by rw [State.pwmLevel_frame]
@[simp] theorem State.pwmLevel_pins : (s.pwmLevel).2.pins = s.pins := by rw [State.pwmLevel_frame]
@[simp] theorem State.pwmLevel_clk : (s.pwmLevel).2.clk = s.clk := by rw [State.pwmLevel_frame]
@[simp] theorem State.pwmLevel_adc : (s.pwmLevel).2.adc = s.adc := by rw [State.pwmLevel_frame]
@[simp] theorem State.pwmLevel_pwm : (s.pwmLevel).2.pwm = s.pwm := by rw [State.pwmLevel_frame]
@[simp] theorem State.pwmLevel_temp : (s.pwmLevel).2.temp = s.temp := by rw [State.pwmLevel_frame]
@[simp] theorem State.pwmLevel_range : (s.pwmLevel).2.range = s.range := by rw [State.pwmLevel_frame]
@[simp] theorem State.pwmLevel_flow : (s.pwmLevel).2.flow = s.flow := by rw [State.pwmLevel_frame]
@[simp] theorem State.pwmLevel_btn : (s.pwmLevel).2.btn = s.btn := by rw [State.pwmLevel_frame]
@[simp] theorem State.pwmLevel_pid : (s.pwmLevel).2.pid = s.pid := by rw [State.pwmLevel_frame]
@[simp] theorem State.pwmLevel_reg : (s.pwmLevel).2.reg = s.reg := by rw [State.pwmLevel_frame]
@[simp] theorem State.pwmLevel_ntf : (s.pwmLevel).2.ntf = s.ntf := by rw [State.pwmLevel_frame]
@[simp] theorem State.pwmLevel_responses : (s.pwmLevel).2.responses = s.responses := by rw [State.pwmLevel_frame]
@[simp] theorem State.pwmLevel_bus : (s.pwmLevel).2.bus = s.bus := by rw [State.pwmLevel_frame]

@[simp] theorem State.readPin_cfg (p : Nat) : (s.readPin p).2.cfg = s.cfg := by rw [State.readPin_frame]
@[simp] theorem State.readPin_now (p : Nat) : (s.readPin p).2.now = s.now := by rw [State.readPin_frame]
@[simp] theorem State.readPin_port (p : Nat) : (s.readPin p).2.port = s.port := by rw [State.readPin_frame]
@[simp] theorem State.readPin_timers (p : Nat) : (s.readPin p).2.timers = s.timers := by rw [State.readPin_frame]
@[simp] theorem State.readPin_pins (p : Nat) : (s.readPin p).2.pins = s.pins := by rw [State.readPin_frame]
@[simp] theorem State.readPin_clk (p : Nat) : (s.readPin p).2.clk = s.clk := by rw [State.readPin_frame]
@[simp] theorem State.readPin_adc (p : Nat) : (s.readPin p).2.adc = s.adc := by rw [State.readPin_frame]
@[simp] theorem State.readPin_pwm (p : Nat) : (s.readPin p).2.pwm = s.pwm := by rw [State.readPin_frame]
@[simp] theorem State.readPin_temp (p : Nat) : (s.readPin p).2.temp = s.temp := by rw [State.readPin_frame]
@[simp] theorem State.readPin_range (p : Nat) : (s.readPin p).2.range = s.range := by rw [State.readPin_frame]
@[simp] theorem State.readPin_flow (p : Nat) : (s.readPin p).2.flow = s.flow := by rw [State.readPin_frame]
@[simp] theorem State.readPin_btn (p : Nat) : (s.readPin p).2.btn = s.btn := by rw [State.readPin_frame]
@[simp] theorem State.readPin_pid (p : Nat) : (s.readPin p).2.pid = s.pid := by rw [State.readPin_frame]
@[simp] theorem State.readPin_reg (p : Nat) : (s.readPin p).2.reg = s.reg := by rw [State.readPin_frame]
@[simp] theorem State.readPin_ntf (p : Nat) : (s.readPin p).2.ntf = s.ntf := by rw [State.readPin_frame]
@[simp] theorem State.readPin_responses (p : Nat) : (s.readPin p).2.responses = s.responses := by rw [State.readPin_frame]
@[simp] theorem State.readPin_bus (p : Nat) : (s.readPin p).2.bus = s.bus := by rw [State.readPin_frame]

@[simp] theorem State.flowEdge_cfg (ts : U32) : (s.flowEdge ts).cfg = s.cfg := by rw [State.flowEdge_frame]
@[simp] theorem State.flowEdge_now (ts : U32) : (s.flowEdge ts).now = s.now := by rw [State.flowEdge_frame]
@[simp] theorem State.flowEdge_port (ts : U32) : (s.flowEdge ts).port = s.port := by rw [State.flowEdge_frame]
@[simp] theorem State.flowEdge_pins (ts : U32) : (s.flowEdge ts).pins = s.pins := by rw [State.flowEdge_frame]
@[simp] theorem State.flowEdge_clk (ts : U32) : (s.flowEdge ts).clk = s.clk := by rw [State.flowEdge_frame]
@[simp] theorem State.flowEdge_adc (ts : U32) : (s.flowEdge ts).adc = s.adc := by rw [State.flowEdge_frame]
@[simp] theorem State.flowEdge_pwm (ts : U32) : (s.flowEdge ts).pwm = s.pwm := by rw [State.flowEdge_frame]
@[simp] theorem State.flowEdge_temp (ts : U32) : (s.flowEdge ts).temp = s.temp := by rw [State.flowEdge_frame]
@[simp] theorem State.flowEdge_range (ts : U32) : (s.flowEdge ts).range = s.range := by rw [State.flowEdge_frame]
@[simp] theorem State.flowEdge_btn (ts : U32) : (s.flowEdge ts).btn = s.btn := by rw [State.flowEdge_frame]
@[simp] theorem State.flowEdge_pid (ts : U32) : (s.flowEdge ts).pid = s.pid := by rw [State.flowEdge_frame]
@[simp] theorem State.flowEdge_reg (ts : U32) : (s.flowEdge ts).reg = s.reg := by rw [State.flowEdge_frame]
@[simp] theorem State.flowEdge_outside (ts : U32) : (s.flowEdge ts).outside = s.outside := by rw [State.flowEdge_frame]
@[simp] theorem State.flowEdge_responses (ts : U32) : (s.flowEdge ts).responses = s.responses := by rw [State.flowEdge_frame]
@[simp] theorem State.flowEdge_bus (ts : U32) : (s.flowEdge ts).bus = s.bus := by rw [State.flowEdge_frame]

@[simp] theorem State.applyButton_cfg (m : U32) (i : Nat) : (s.applyButton m i).cfg = s.cfg := by rw [State.applyButton_frame]
@[simp] theorem State.applyButton_now (m : U32) (i : Nat) : (s.applyButton m i).now = s.now := by rw [State.applyButton_frame]
@[simp] theorem State.applyButton_port (m : U32) (i : Nat) : (s.applyButton m i).port = s.port := by rw [State.applyButton_frame]
@[simp] theorem State.applyButton_timers (m : U32) (i : Nat) : (s.applyButton m i).timers = s.timers := by rw [State.applyButton_frame]
@[simp] theorem State.applyButton_pins (m : U32) (i : Nat) : (s.applyButton m i).pins = s.pins := by rw [State.applyButton_frame]
@[simp] theorem State.applyButton_clk (m : U32) (i : Nat) : (s.applyButton m i).clk = s.clk := by rw [State.applyButton_frame]
@[simp] theorem State.applyButton_adc (m : U32) (i : Nat) : (s.applyButton m i).adc = s.adc := by rw [State.applyButton_frame]
@[simp] theorem State.applyButton_pwm (m : U32) (i : Nat) : (s.applyButton m i).pwm = s.pwm := by rw [State.applyButton_frame]
@[simp] theorem State.applyButton_temp (m : U32) (i : Nat) : (s.applyButton m i).temp = s.temp := by rw [State.applyButton_frame]
@[simp] theorem State.applyButton_range (m : U32) (i : Nat) : (s.applyButton m i).range = s.range := by rw [State.applyButton_frame]
@[simp] theorem State.applyButton_flow (m : U32) (i : Nat) : (s.applyButton m i).flow = s.flow := by rw [State.applyButton_frame]
@[simp] theorem State.applyButton_pid (m : U32) (i : Nat) : (s.applyButton m i).pid = s.pid := by rw [State.applyButton_frame]
@[simp] theorem State.applyButton_reg (m : U32) (i : Nat) : (s.applyButton m i).reg = s.reg := by rw [State.applyButton_frame]
@[simp] theorem State.applyButton_outside (m : U32) (i : Nat) : (s.applyButton m i).outside = s.outside := by rw [State.applyButton_frame]
@[simp] theorem State.applyButton_responses (m : U32) (i : Nat) : (s.applyButton m i).responses = s.responses := by rw [State.applyButton_frame]
@[simp] theorem State.applyButton_bus (m : U32) (i : Nat) : (s.applyButton m i).bus = s.bus := by rw [State.applyButton_frame]

@[simp] theorem State.applyMask_cfg (m : U32) : (s.applyMask m).cfg = s.cfg := by rw [State.applyMask_frame]
@[simp] theorem State.applyMask_now (m : U32) : (s.applyMask m).now = s.now := by rw [State.applyMask_frame]
@[simp] theorem State.applyMask_port (m : U32) : (s.applyMask m).port = s.port := by rw [State.applyMask_frame]
@[simp] theorem State.applyMask_timers (m : U32) : (s.applyMask m).timers = s.timers := by rw [State.applyMask_frame]
@[simp] theorem State.applyMask_pins (m : U32) : (s.applyMask m).pins = s.pins := by rw [State.applyMask_frame]
@[simp] theorem State.applyMask_clk (m : U32) : (s.applyMask m).clk = s.clk := by rw [State.applyMask_frame]
@[simp] theorem State.applyMask_adc (m : U32) : (s.applyMask m).adc = s.adc := by rw [State.applyMask_frame]
@[simp] theorem State.applyMask_pwm (m : U32) : (s.applyMask m).pwm = s.pwm := by rw [State.applyMask_frame]
@[simp] theorem State.applyMask_temp (m : U32) : (s.applyMask m).temp = s.temp := by rw [State.applyMask_frame]
@[simp] theorem State.applyMask_range (m : U32) : (s.applyMask m).range = s.range := by rw [State.applyMask_frame]
@[simp] theorem State.applyMask_flow (m : U32) : (s.applyMask m).flow = s.flow := by rw [State.applyMask_frame]
@[simp] theorem State.applyMask_pid (m : U32) : (s.applyMask m).pid = s.pid := by rw [State.applyMask_frame]
@[simp] theorem State.applyMask_reg (m : U32) : (s.applyMask m).reg = s.reg := by rw [State.applyMask_frame]
@[simp] theorem State.applyMask_outside (m : U32) : (s.applyMask m).outside = s.outside := by rw [State.applyMask_frame]
@[simp] theorem State.applyMask_responses (m : U32) : (s.applyMask m).responses = s.responses := by rw [State.applyMask_frame]
@[simp] theorem State.applyMask_bus (m : U32) : (s.applyMask m).bus = s.bus := by rw [State.applyMask_frame]

@[simp] theorem State.ladderDone_cfg (v : Real64) : (s.ladderDone v).cfg = s.cfg := by rw [State.ladderDone_frame]
@[simp] theorem State.ladderDone_now (v : Real64) : (s.ladderDone v).now = s.now := by rw [State.ladderDone_frame]
@[simp] theorem State.ladderDone_port (v : Real64) : (s.ladderDone v).port = s.port := by rw [State.ladderDone_frame]
@[simp] theorem State.ladderDone_timers (v : Real64) : (s.ladderDone v).timers = s.timers := by rw [State.ladderDone_frame]
@[simp] theorem State.ladderDone_pins (v : Real64) : (s.ladderDone v).pins = s.pins := by rw [State.ladderDone_frame]
@[simp] theorem State.ladderDone_clk (v : Real64) : (s.ladderDone v).clk = s.clk := by rw [State.ladderDone_frame]
@[simp] theorem State.ladderDone_adc (v : Real64) : (s.ladderDone v).adc = s.adc := by rw [State.ladderDone_frame]
@[simp] theorem State.ladderDone_pwm (v : Real64) : (s.ladderDone v).pwm = s.pwm := by rw [State.ladderDone_frame]
@[simp] theorem State.ladderDone_temp (v : Real64) : (s.ladderDone v).temp = s.temp := by rw [State.ladderDone_frame]
@[simp] theorem State.ladderDone_range (v : Real64) : (s.ladderDone v).range = s.range := by rw [State.ladderDone_frame]
@[simp] theorem State.ladderDone_flow (v : Real64) : (s.ladderDone v).flow = s.flow := by rw [State.ladderDone_frame]
@[simp] theorem State.ladderDone_pid (v : Real64) : (s.ladderDone v).pid = s.pid := by rw [State.ladderDone_frame]
@[simp] theorem State.ladderDone_reg (v : Real64) : (s.ladderDone v).reg = s.reg := by rw [State.ladderDone_frame]
@[simp] theorem State.ladderDone_outside (v : Real64) : (s.ladderDone v).outside = s.outside := by rw [State.ladderDone_frame]
@[simp] theorem State.ladderDone_responses (v : Real64) : (s.ladderDone v).responses = s.responses := by rw [State.ladderDone_frame]
@[simp] theorem State.ladderDone_bus (v : Real64) : (s.ladderDone v).bus = s.bus := by rw [State.ladderDone_frame]

@[simp] theorem State.deliver_cfg (req : AdcReq) (st : Status) (v : Real64) : (s.deliver req st v).cfg = s.cfg := by rw [State.deliver_frame]
@[simp] theorem State.deliver_now (req : AdcReq) (st : Status) (v : Real64) : (s.deliver req st v).now = s.now := by rw [State.deliver_frame]
@[simp] theorem State.deliver_pins (req : AdcReq) (st : Status) (v : Real64) : (s.deliver req st v).pins = s.pins := by rw [State.deliver_frame]
@[simp] theorem State.deliver_clk (req : AdcReq) (st : Status) (v : Real64) : (s.deliver req st v).clk = s.clk := by rw [State.deliver_frame]
@[simp] theorem State.deliver_adc (req : AdcReq) (st : Status) (v : Real64) : (s.deliver req st v).adc = s.adc := by rw [State.deliver_frame]
@[simp] theorem State.deliver_pwm (req : AdcReq) (st : Status) (v : Real64) : (s.deliver req st v).pwm = s.pwm := by rw [State.deliver_frame]
@[simp] theorem State.deliver_temp (req : AdcReq) (st : Status) (v : Real64) : (s.deliver req st v).temp = s.temp := by rw [State.deliver_frame]
@[simp] theorem State.deliver_range (req : AdcReq) (st : Status) (v : Real64) : (s.deliver req st v).range = s.range := by rw [State.deliver_frame]
@[simp] theorem State.deliver_flow (req : AdcReq) (st : Status) (v : Real64) : (s.deliver req st v).flow = s.flow := by rw [State.deliver_frame]
@[simp] theorem State.deliver_pid (req : AdcReq) (st : Status) (v : Real64) : (s.deliver req st v).pid = s.pid := by rw [State.deliver_frame]
@[simp] theorem State.deliver_reg (req : AdcReq) (st : Status) (v : Real64) : (s.deliver req st v).reg = s.reg := by rw [State.deliver_frame]
@[simp] theorem State.deliver_outside (req : AdcReq) (st : Status) (v : Real64) : (s.deliver req st v).outside = s.outside := by rw [State.deliver_frame]
@[simp] theorem State.deliver_bus (req : AdcReq) (st : Status) (v : Real64) : (s.deliver req st v).bus = s.bus := by rw [State.deliver_frame]

@[simp] theorem State.startNext_cfg (l : List (BitVec 2 × AdcReq)) : (s.startNext l).cfg = s.cfg := by rw [State.startNext_frame]
@[simp] theorem State.startNext_now (l : List (BitVec 2 × AdcReq)) : (s.startNext l).now = s.now := by rw [State.startNext_frame]
@[simp] theorem State.startNext_pins (l : List (BitVec 2 × AdcReq)) : (s.startNext l).pins = s.pins := by rw [State.startNext_frame]
@[simp] theorem State.startNext_clk (l : List (BitVec 2 × AdcReq)) : (s.startNext l).clk = s.clk := by rw [State.startNext_frame]
@[simp] theorem State.startNext_pwm (l : List (BitVec 2 × AdcReq)) : (s.startNext l).pwm = s.pwm := by rw [State.startNext_frame]
@[simp] theorem State.startNext_temp (l : List (BitVec 2 × AdcReq)) : (s.startNext l).temp = s.temp := by rw [State.startNext_frame]
@[simp] theorem State.startNext_range (l : List (BitVec 2 × AdcReq)) : (s.startNext l).range = s.range := by rw [State.startNext_frame]
@[simp] theorem State.startNext_flow (l : List (BitVec 2 × AdcReq)) : (s.startNext l).flow = s.flow := by rw [State.startNext_frame]
@[simp] theorem State.startNext_pid (l : List (BitVec 2 × AdcReq)) : (s.startNext l).pid = s.pid := by rw [State.startNext_frame]
@[simp] theorem State.startNext_reg (l : List (BitVec 2 × AdcReq)) : (s.startNext l).reg = s.reg := by rw [State.startNext_frame]

@[simp] theorem State.finish_cfg (req : AdcReq) (st : Status) (v : Real64) : (s.finish req st v).cfg = s.cfg := by rw [State.finish_frame]
@[simp] theorem State.finish_now (req : AdcReq) (st : Status) (v : Real64) : (s.finish req st v).now = s.now := by rw [State.finish_frame]
@[simp] theorem State.finish_pins (req : AdcReq) (st : Status) (v : Real64) : (s.finish req st v).pins = s.pins := by rw [State.finish_frame]
@[simp] theorem State.finish_clk (req : AdcReq) (st : Status) (v : Real64) : (s.finish req st v).clk = s.clk := by rw [State.finish_frame]
@[simp] theorem State.finish_pwm (req : AdcReq) (st : Status) (v : Real64) : (s.finish req st v).pwm = s.pwm := by rw [State.finish_frame]
@[simp] theorem State.finish_temp (req : AdcReq) (st : Status) (v : Real64) : (s.finish req st v).temp = s.temp := by rw [State.finish_frame]
@[simp] theorem State.finish_range (req : AdcReq) (st : Status) (v : Real64) : (s.finish req st v).range = s.range := by rw [State.finish_frame]
@[simp] theorem State.finish_flow (req : AdcReq) (st : Status) (v : Real64) : (s.finish req st v).flow = s.flow := by rw [State.finish_frame]
@[simp] theorem State.finish_pid (req : AdcReq) (st : Status) (v : Real64) : (s.finish req st v).pid = s.pid := by rw [State.finish_frame]
@[simp] theorem State.finish_reg (req : AdcReq) (st : Status) (v : Real64) : (s.finish req st v).reg = s.reg := by rw [State.finish_frame]

@[simp] theorem State.request_cfg (ch : BitVec 2) (req : AdcReq) : (s.request ch req).cfg = s.cfg := by rw [State.request_frame]
@[simp] theorem State.request_now (ch : BitVec 2) (req : AdcReq) : (s.request ch req).now = s.now := by rw [State.request_frame]
@[simp] theorem State.request_pins (ch : BitVec 2) (req : AdcReq) : (s.request ch req).pins = s.pins := by rw [State.request_frame]
@[simp] theorem State.request_clk (ch : BitVec 2) (req : AdcReq) : (s.request ch req).clk = s.clk := by rw [State.request_frame]
@[simp] theorem State.request_pwm (ch : BitVec 2) (req : AdcReq) : (s.request ch req).pwm = s.pwm := by rw [State.request_frame]
@[simp] theorem State.request_temp (ch : BitVec 2) (req : AdcReq) : (s.request ch req).temp = s.temp := by rw [State.request_frame]
@[simp] theorem State.request_range (ch : BitVec 2) (req : AdcReq) : (s.request ch req).range = s.range := by rw [State.request_frame]
@[simp] theorem State.request_flow (ch : BitVec 2) (req : AdcReq) : (s.request ch req).flow = s.flow := by rw [State.request_frame]
@[simp] theorem State.request_pid (ch : BitVec 2) (req : AdcReq) : (s.request ch req).pid = s.pid := by rw [State.request_frame]
@[simp] theorem State.request_reg (ch : BitVec 2) (req : AdcReq) : (s.request ch req).reg = s.reg := by rw [State.request_frame]

@[simp] theorem State.poll_cfg (req : AdcReq) (t0 : Nat) : (s.poll req t0).cfg = s.cfg := by rw [State.poll_frame]
@[simp] theorem State.poll_now (req : AdcReq) (t0 : Nat) : (s.poll req t0).now = s.now := by rw [State.poll_frame]
@[simp] theorem State.poll_pins (req : AdcReq) (t0 : Nat) : (s.poll req t0).pins = s.pins := by rw [State.poll_frame]
@[simp] theorem State.poll_clk (req : AdcReq) (t0 : Nat) : (s.poll req t0).clk = s.clk := by rw [State.poll_frame]
@[simp] theorem State.poll_pwm (req : AdcReq) (t0 : Nat) : (s.poll req t0).pwm = s.pwm := by rw [State.poll_frame]
@[simp] theorem State.poll_temp (req : AdcReq) (t0 : Nat) : (s.poll req t0).temp = s.temp := by rw [State.poll_frame]
@[simp] theorem State.poll_range (req : AdcReq) (t0 : Nat) : (s.poll req t0).range = s.range := by rw [State.poll_frame]
@[simp] theorem State.poll_flow (req : AdcReq) (t0 : Nat) : (s.poll req t0).flow = s.flow := by rw [State.poll_frame]
@[simp] theorem State.poll_pid (req : AdcReq) (t0 : Nat) : (s.poll req t0).pid = s.pid := by rw [State.poll_frame]
@[simp] theorem State.poll_reg (req : AdcReq) (t0 : Nat) : (s.poll req t0).reg = s.reg := by rw [State.poll_frame]

@[simp] theorem State.ladderPoll_cfg : (s.ladderPoll).cfg = s.cfg := by rw [State.ladderPoll_frame]
@[simp] theorem State.ladderPoll_now : (s.ladderPoll).now = s.now := by rw [State.ladderPoll_frame]
@[simp] theorem State.ladderPoll_pins : (s.ladderPoll).pins = s.pins := by rw [State.ladderPoll_frame]
@[simp] theorem State.ladderPoll_clk : (s.ladderPoll).clk = s.clk := by rw [State.ladderPoll_frame]
@[simp] theorem State.ladderPoll_pwm : (s.ladderPoll).pwm = s.pwm := by rw [State.ladderPoll_frame]
@[simp] theorem State.ladderPoll_temp : (s.ladderPoll).temp = s.temp := by rw [State.ladderPoll_frame]
@[simp] theorem State.ladderPoll_range : (s.ladderPoll).range = s.range := by rw [State.ladderPoll_frame]
@[simp] theorem State.ladderPoll_flow : (s.ladderPoll).flow = s.flow := by rw [State.ladderPoll_frame]
@[simp] theorem State.ladderPoll_pid : (s.ladderPoll).pid = s.pid := by rw [State.ladderPoll_frame]
@[simp] theorem State.ladderPoll_reg : (s.ladderPoll).reg = s.reg := by rw [State.ladderPoll_frame]

@[simp] theorem State.btnPoll_cfg : (s.btnPoll).cfg = s.cfg := by rw [State.btnPoll_frame]
@[simp] theorem State.btnPoll_now : (s.btnPoll).now = s.now := by rw [State.btnPoll_frame]
@[simp] theorem State.btnPoll_pins : (s.btnPoll).pins = s.pins := by rw [State.btnPoll_frame]
@[simp] theorem State.btnPoll_clk : (s.btnPoll).clk = s.clk := by rw [State.btnPoll_frame]
@[simp] theorem State.btnPoll_pwm : (s.btnPoll).pwm = s.pwm := by rw [State.btnPoll_frame]
@[simp] theorem State.btnPoll_temp : (s.btnPoll).temp = s.temp := by rw [State.btnPoll_frame]
@[simp] theorem State.btnPoll_range : (s.btnPoll).range = s.range := by rw [State.btnPoll_frame]
@[simp] theorem State.btnPoll_flow : (s.btnPoll).flow = s.flow := by rw [State.btnPoll_frame]
@[simp] theorem State.btnPoll_pid : (s.btnPoll).pid = s.pid := by rw [State.btnPoll_frame]
@[simp] theorem State.btnPoll_reg : (s.btnPoll).reg = s.reg := by rw [State.btnPoll_frame]

@[simp] theorem State.hostResult_cfg (r : Real64) (b : Bool) : (s.hostResult r b).cfg = s.cfg := by rw [State.hostResult_frame]
@[simp] theorem State.hostResult_now (r : Real64) (b : Bool) : (s.hostResult r b).now = s.now := by rw [State.hostResult_frame]
@[simp] theorem State.hostResult_pins (r : Real64) (b : Bool) : (s.hostResult r b).pins = s.pins := by rw [State.hostResult_frame]
@[simp] theorem State.hostResult_clk (r : Real64) (b : Bool) : (s.hostResult r b).clk = s.clk := by rw [State.hostResult_frame]
@[simp] theorem State.hostResult_adc (r : Real64) (b : Bool) : (s.hostResult r b).adc = s.adc := by rw [State.hostResult_frame]
@[simp] theorem State.hostResult_pwm (r : Real64) (b : Bool) : (s.hostResult r b).pwm = s.pwm := by rw [State.hostResult_frame]
@[simp] theorem State.hostResult_temp (r : Real64) (b : Bool) : (s.hostResult r b).temp = s.temp := by rw [State.hostResult_frame]
@[simp] theorem State.hostResult_flow (r : Real64) (b : Bool) : (s.hostResult r b).flow = s.flow := by rw [State.hostResult_frame]
@[simp] theorem State.hostResult_btn (r : Real64) (b : Bool) : (s.hostResult r b).btn = s.btn := by rw [State.hostResult_frame]
@[simp] theorem State.hostResult_pid (r : Real64) (b : Bool) : (s.hostResult r b).pid = s.pid := by rw [State.hostResult_frame]
@[simp] theorem State.hostResult_reg (r : Real64) (b : Bool) : (s.hostResult r b).reg = s.reg := by rw [State.hostResult_frame]
@[simp] theorem State.hostResult_ntf (r : Real64) (b : Bool) : (s.hostResult r b).ntf = s.ntf := by rw [State.hostResult_frame]
@[simp] theorem State.hostResult_outside (r : Real64) (b : Bool) : (s.hostResult r b).outside = s.outside := by rw [State.hostResult_frame]
@[simp] theorem State.hostResult_bus (r : Real64) (b : Bool) : (s.hostResult r b).bus = s.bus := by rw [State.hostResult_frame]

@[simp] theorem State.completeReady_cfg : (s.completeReady).cfg = s.cfg := by rw [State.completeReady_frame]
@[simp] theorem State.completeReady_now : (s.completeReady).now = s.now := by rw [State.completeReady_frame]
@[simp] theorem State.completeReady_pins : (s.completeReady).pins = s.pins := by rw [State.completeReady_frame]
@[simp] theorem State.completeReady_clk : (s.completeReady).clk = s.clk := by rw [State.completeReady_frame]
@[simp] theorem State.completeReady_adc : (s.completeReady).adc = s.adc := by rw [State.completeReady_frame]
@[simp] theorem State.completeReady_pwm : (s.completeReady).pwm = s.pwm := by rw [State.completeReady_frame]
@[simp] theorem State.completeReady_temp : (s.completeReady).temp = s.temp := by rw [State.completeReady_frame]
@[simp] theorem State.completeReady_range : (s.completeReady).range = s.range := by rw [State.completeReady_frame]
@[simp] theorem State.completeReady_flow : (s.completeReady).flow = s.flow := by rw [State.completeReady_frame]
@[simp] theorem State.completeReady_btn : (s.completeReady).btn = s.btn := by rw [State.completeReady_frame]
@[simp] theorem State.completeReady_pid : (s.completeReady).pid = s.pid := by rw [State.completeReady_frame]
@[simp] theorem State.completeReady_reg : (s.completeReady).reg = s.reg := by rw [State.completeReady_frame]
@[simp] theorem State.completeReady_ntf : (s.completeReady).ntf = s.ntf := by rw [State.completeReady_frame]
@[simp] theorem State.completeReady_outside : (s.completeReady).outside = s.outside := by rw [State.completeReady_frame]
@[simp] theorem State.completeReady_bus : (s.completeReady).bus = s.bus := by rw [State.completeReady_frame]

@[simp] theorem State.samplerResult_cfg (r : Real64) : (s.samplerResult r).cfg = s.cfg := by rw [State.samplerResult_frame]
@[simp] theorem State.samplerResult_now (r : Real64) : (s.samplerResult r).now = s.now := by rw [State.samplerResult_frame]
@[simp] theorem State.samplerResult_pins (r : Real64) : (s.samplerResult r).pins = s.pins := by rw [State.samplerResult_frame]
@[simp] theorem State.samplerResult_clk (r : Real64) : (s.samplerResult r).clk = s.clk := by rw [State.samplerResult_frame]
@[simp] theorem State.samplerResult_adc (r : Real64) : (s.samplerResult r).adc = s.adc := by rw [State.samplerResult_frame]
@[simp] theorem State.samplerResult_pwm (r : Real64) : (s.samplerResult r).pwm = s.pwm := by rw [State.samplerResult_frame]
@[simp] theorem State.samplerResult_temp (r : Real64) : (s.samplerResult r).temp = s.temp := by rw [State.samplerResult_frame]
@[simp] theorem State.samplerResult_flow (r : Real64) : (s.samplerResult r).flow = s.flow := by rw [State.samplerResult_frame]
@[simp] theorem State.samplerResult_btn (r : Real64) : (s.samplerResult r).btn = s.btn := by rw [State.samplerResult_frame]
@[simp] theorem State.samplerResult_pid (r : Real64) : (s.samplerResult r).pid = s.pid := by rw [State.samplerResult_frame]
@[simp] theorem State.samplerResult_reg (r : Real64) : (s.samplerResult r).reg = s.reg := by rw [State.samplerResult_frame]
@[simp] theorem State.samplerResult_ntf (r : Real64) : (s.samplerResult r).ntf = s.ntf := by rw [State.samplerResult_frame]
@[simp] theorem State.samplerResult_bus (r : Real64) : (s.samplerResult r).bus = s.bus := by rw [State.samplerResult_frame]

@[simp] theorem State.measureDone_cfg (r : Real64) (b : Bool) : (s.measureDone r b).cfg = s.cfg := by rw [State.measureDone_frame]
@[simp] theorem State.measureDone_now (r : Real64) (b : Bool) : (s.measureDone r b).now = s.now := by rw [State.measureDone_frame]
@[simp] theorem State.measureDone_pins (r : Real64) (b : Bool) : (s.measureDone r b).pins = s.pins := by rw [State.measureDone_frame]
@[simp] theorem State.measureDone_clk (r : Real64) (b : Bool) : (s.measureDone r b).clk = s.clk := by rw [State.measureDone_frame]
@[simp] theorem State.measureDone_adc (r : Real64) (b : Bool) : (s.measureDone r b).adc = s.adc := by rw [State.measureDone_frame]
@[simp] theorem State.measureDone_pwm (r : Real64) (b : Bool) : (s.measureDone r b).pwm = s.pwm := by rw [State.measureDone_frame]
@[simp] theorem State.measureDone_temp (r : Real64) (b : Bool) : (s.measureDone r b).temp = s.temp := by rw [State.measureDone_frame]
@[simp] theorem State.measureDone_flow (r : Real64) (b : Bool) : (s.measureDone r b).flow = s.flow := by rw [State.measureDone_frame]
@[simp] theorem State.measureDone_btn (r : Real64) (b : Bool) : (s.measureDone r b).btn = s.btn := by rw [State.measureDone_frame]
@[simp] theorem State.measureDone_pid (r : Real64) (b : Bool) : (s.measureDone r b).pid = s.pid := by rw [State.measureDone_frame]
@[simp] theorem State.measureDone_reg (r : Real64) (b : Bool) : (s.measureDone r b).reg = s.reg := by rw [State.measureDone_frame]
@[simp] theorem State.measureDone_ntf (r : Real64) (b : Bool) : (s.measureDone r b).ntf = s.ntf := by rw [State.measureDone_frame]
@[simp] theorem State.measureDone_bus (r : Real64) (b : Bool) : (s.measureDone r b).bus = s.bus := by rw [State.measureDone_frame]

@[simp] theorem State.echoTimeout_cfg : (s.echoTimeout).cfg = s.cfg := by rw [State.echoTimeout_frame]
@[simp] theorem State.echoTimeout_now : (s.echoTimeout).now = s.now := by rw [State.echoTimeout_frame]
@[simp] theorem State.echoTimeout_pins : (s.echoTimeout).pins = s.pins := by rw [State.echoTimeout_frame]
@[simp] theorem State.echoTimeout_clk : (s.echoTimeout).clk = s.clk := by rw [State.echoTimeout_frame]
@[simp] theorem State.echoTimeout_adc : (s.echoTimeout).adc = s.adc := by rw [State.echoTimeout_frame]
@[simp] theorem State.echoTimeout_pwm : (s.echoTimeout).pwm = s.pwm := by rw [State.echoTimeout_frame]
@[simp] theorem State.echoTimeout_temp : (s.echoTimeout).temp = s.temp := by rw [State.echoTimeout_frame]
@[simp] theorem State.echoTimeout_flow : (s.echoTimeout).flow = s.flow := by rw [State.echoTimeout_frame]
@[simp] theorem State.echoTimeout_btn : (s.echoTimeout).btn = s.btn := by rw [State.echoTimeout_frame]
@[simp] theorem State.echoTimeout_pid : (s.echoTimeout).pid = s.pid := by rw [State.echoTimeout_frame]
@[simp] theorem State.echoTimeout_reg : (s.echoTimeout).reg = s.reg := by rw [State.echoTimeout_frame]
@[simp] theorem State.echoTimeout_ntf : (s.echoTimeout).ntf = s.ntf := by rw [State.echoTimeout_frame]
@[simp] theorem State.echoTimeout_bus : (s.echoTimeout).bus = s.bus := by rw [State.echoTimeout_frame]

@[simp] theorem State.echoEdge_cfg (level : Bool) (ts : U32) : (s.echoEdge level ts).cfg = s.cfg := by rw [State.echoEdge_frame]
@[simp] theorem State.echoEdge_now (level : Bool) (ts : U32) : (s.echoEdge level ts).now = s.now := by rw [State.echoEdge_frame]
@[simp] theorem State.echoEdge_pins (level : Bool) (ts : U32) : (s.echoEdge level ts).pins = s.pins := by rw [State.echoEdge_frame]
@[simp] theorem State.echoEdge_clk (level : Bool) (ts : U32) : (s.echoEdge level ts).clk = s.clk := by rw [State.echoEdge_frame]
@[simp] theorem State.echoEdge_adc (level : Bool) (ts : U32) : (s.echoEdge level ts).adc = s.adc := by rw [State.echoEdge_frame]
@[simp] theorem State.echoEdge_pwm (level : Bool) (ts : U32) : (s.echoEdge level ts).pwm = s.pwm := by rw [State.echoEdge_frame]
@[simp] theorem State.echoEdge_temp (level : Bool) (ts : U32) : (s.echoEdge level ts).temp = s.temp := by rw [State.echoEdge_frame]
@[simp] theorem State.echoEdge_flow (level : Bool) (ts : U32) : (s.echoEdge level ts).flow = s.flow := by rw [State.echoEdge_frame]
@[simp] theorem State.echoEdge_btn (level : Bool) (ts : U32) : (s.echoEdge level ts).btn = s.btn := by rw [State.echoEdge_frame]
@[simp] theorem State.echoEdge_pid (level : Bool) (ts : U32) : (s.echoEdge level ts).pid = s.pid := by rw [State.echoEdge_frame]
@[simp] theorem State.echoEdge_reg (level : Bool) (ts : U32) : (s.echoEdge level ts).reg = s.reg := by rw [State.echoEdge_frame]
@[simp] theorem State.echoEdge_ntf (level : Bool) (ts : U32) : (s.echoEdge level ts).ntf = s.ntf := by rw [State.echoEdge_frame]
@[simp] theorem State.echoEdge_bus (level : Bool) (ts : U32) : (s.echoEdge level ts).bus = s.bus := by rw [State.echoEdge_frame]

@[simp] theorem State.ownerHandler_cfg (ev : EdgeEvent) : (s.ownerHandler ev).cfg = s.cfg := by rw [State.ownerHandler_frame]
@[simp] theorem State.ownerHandler_now (ev : EdgeEvent) : (s.ownerHandler ev).now = s.now := by rw [State.ownerHandler_frame]
@[simp] theorem State.ownerHandler_pins (ev : EdgeEvent) : (s.ownerHandler ev).pins = s.pins := by rw [State.ownerHandler_frame]
@[simp] theorem State.ownerHandler_clk (ev : EdgeEvent) : (s.ownerHandler ev).clk = s.clk := by rw [State.ownerHandler_frame]
@[simp] theorem State.ownerHandler_adc (ev : EdgeEvent) : (s.ownerHandler ev).adc = s.adc := by rw [State.ownerHandler_frame]
@[simp] theorem State.ownerHandler_pwm (ev : EdgeEvent) : (s.ownerHandler ev).pwm = s.pwm := by rw [State.ownerHandler_frame]
@[simp] theorem State.ownerHandler_btn (ev : EdgeEvent) : (s.ownerHandler ev).btn = s.btn := by rw [State.ownerHandler_frame]
@[simp] theorem State.ownerHandler_pid (ev : EdgeEvent) : (s.ownerHandler ev).pid = s.pid := by rw [State.ownerHandler_frame]
@[simp] theorem State.ownerHandler_reg (ev : EdgeEvent) : (s.ownerHandler ev).reg = s.reg := by rw [State.ownerHandler_frame]
@[simp] theorem State.ownerHandler_bus (ev : EdgeEvent) : (s.ownerHandler ev).bus = s.bus := by rw [State.ownerHandler_frame]

@[simp] theorem State.waitEdgeDone_cfg (ev : EdgeEvent) : (s.waitEdgeDone ev).cfg = s.cfg := by rw [State.waitEdgeDone_frame]
@[simp] theorem State.waitEdgeDone_now (ev : EdgeEvent) : (s.waitEdgeDone ev).now = s.now := by rw [State.waitEdgeDone_frame]
@[simp] theorem State.waitEdgeDone_pins (ev : EdgeEvent) : (s.waitEdgeDone ev).pins = s.pins := by rw [State.waitEdgeDone_frame]
@[simp] theorem State.waitEdgeDone_clk (ev : EdgeEvent) : (s.waitEdgeDone ev).clk = s.clk := by rw [State.waitEdgeDone_frame]
@[simp] theorem State.waitEdgeDone_adc (ev : EdgeEvent) : (s.waitEdgeDone ev).adc = s.adc := by rw [State.waitEdgeDone_frame]
@[simp] theorem State.waitEdgeDone_pwm (ev : EdgeEvent) : (s.waitEdgeDone ev).pwm = s.pwm := by rw [State.waitEdgeDone_frame]
@[simp] theorem State.waitEdgeDone_temp (ev : EdgeEvent) : (s.waitEdgeDone ev).temp = s.temp := by rw [State.waitEdgeDone_frame]
@[simp] theorem State.waitEdgeDone_range (ev : EdgeEvent) : (s.waitEdgeDone ev).range = s.range := by rw [State.waitEdgeDone_frame]
@[simp] theorem State.waitEdgeDone_flow (ev : EdgeEvent) : (s.waitEdgeDone ev).flow = s.flow := by rw [State.waitEdgeDone_frame]
@[simp] theorem State.waitEdgeDone_btn (ev : EdgeEvent) : (s.waitEdgeDone ev).btn = s.btn := by rw [State.waitEdgeDone_frame]
@[simp] theorem State.waitEdgeDone_pid (ev : EdgeEvent) : (s.waitEdgeDone ev).pid = s.pid := by rw [State.waitEdgeDone_frame]
@[simp] theorem State.waitEdgeDone_reg (ev : EdgeEvent) : (s.waitEdgeDone ev).reg = s.reg := by rw [State.waitEdgeDone_frame]
@[simp] theorem State.waitEdgeDone_ntf (ev : EdgeEvent) : (s.waitEdgeDone ev).ntf = s.ntf := by rw [State.waitEdgeDone_frame]
@[simp] theorem State.waitEdgeDone_outside (ev : EdgeEvent) : (s.waitEdgeDone ev).outside = s.outside := by rw [State.waitEdgeDone_frame]
@[simp] theorem State.waitEdgeDone_bus (ev : EdgeEvent) : (s.waitEdgeDone ev).bus = s.bus := by rw [State.waitEdgeDone_frame]

@[simp] theorem State.notifyEdge_cfg (ev : EdgeEvent) : (s.notifyEdge ev).cfg = s.cfg := by rw [State.notifyEdge_frame]
@[simp] theorem State.notifyEdge_now (ev : EdgeEvent) : (s.notifyEdge ev).now = s.now := by rw [State.notifyEdge_frame]
@[simp] theorem State.notifyEdge_port (ev : EdgeEvent) : (s.notifyEdge ev).port = s.port := by rw [State.notifyEdge_frame]
@[simp] theorem State.notifyEdge_timers (ev : EdgeEvent) : (s.notifyEdge ev).timers = s.timers := by rw [State.notifyEdge_frame]
@[simp] theorem State.notifyEdge_pins (ev : EdgeEvent) : (s.notifyEdge ev).pins = s.pins := by rw [State.notifyEdge_frame]
@[simp] theorem State.notifyEdge_clk (ev : EdgeEvent) : (s.notifyEdge ev).clk = s.clk := by rw [State.notifyEdge_frame]
@[simp] theorem State.notifyEdge_adc (ev : EdgeEvent) : (s.notifyEdge ev).adc = s.adc := by rw [State.notifyEdge_frame]
@[simp] theorem State.notifyEdge_pwm (ev : EdgeEvent) : (s.notifyEdge ev).pwm = s.pwm := by rw [State.notifyEdge_frame]
@[simp] theorem State.notifyEdge_temp (ev : EdgeEvent) : (s.notifyEdge ev).temp = s.temp := by rw [State.notifyEdge_frame]
@[simp] theorem State.notifyEdge_range (ev : EdgeEvent) : (s.notifyEdge ev).range = s.range := by rw [State.notifyEdge_frame]
@[simp] theorem State.notifyEdge_flow (ev : EdgeEvent) : (s.notifyEdge ev).flow = s.flow := by rw [State.notifyEdge_frame]
@[simp] theorem State.notifyEdge_btn (ev : EdgeEvent) : (s.notifyEdge ev).btn = s.btn := by rw [State.notifyEdge_frame]
@[simp] theorem State.notifyEdge_pid (ev : EdgeEvent) : (s.notifyEdge ev).pid = s.pid := by rw [State.notifyEdge_frame]
@[simp] theorem State.notifyEdge_reg (ev : EdgeEvent) : (s.notifyEdge ev).reg = s.reg := by rw [State.notifyEdge_frame]
@[simp] theorem State.notifyEdge_outside (ev : EdgeEvent) : (s.notifyEdge ev).outside = s.outside := by rw [State.notifyEdge_frame]
@[simp] theorem State.notifyEdge_responses (ev : EdgeEvent) : (s.notifyEdge ev).responses = s.responses := by rw [State.notifyEdge_frame]
@[simp] theorem State.notifyEdge_bus (ev : EdgeEvent) : (s.notifyEdge ev).bus = s.bus := by rw [State.notifyEdge_frame]

@[simp] theorem State.dispatch_cfg (ev : EdgeEvent) : (s.dispatch ev).cfg = s.cfg := by rw [State.dispatch_frame]
@[simp] theorem State.dispatch_now (ev : EdgeEvent) : (s.dispatch ev).now = s.now := by rw [State.dispatch_frame]
@[simp] theorem State.dispatch_pins (ev : EdgeEvent) : (s.dispatch ev).pins = s.pins := by rw [State.dispatch_frame]
@[simp] theorem State.dispatch_clk (ev : EdgeEvent) : (s.dispatch ev).clk = s.clk := by rw [State.dispatch_frame]
@[simp] theorem State.dispatch_adc (ev : EdgeEvent) : (s.dispatch ev).adc = s.adc := by rw [State.dispatch_frame]
@[simp] theorem State.dispatch_pwm (ev : EdgeEvent) : (s.dispatch ev).pwm = s.pwm := by rw [State.dispatch_frame]
@[simp] theorem State.dispatch_btn (ev : EdgeEvent) : (s.dispatch ev).btn = s.btn := by rw [State.dispatch_frame]
@[simp] theorem State.dispatch_pid (ev : EdgeEvent) : (s.dispatch ev).pid = s.pid := by rw [State.dispatch_frame]
@[simp] theorem State.dispatch_reg (ev : EdgeEvent) : (s.dispatch ev).reg = s.reg := by rw [State.dispatch_frame]
@[simp] theorem State.dispatch_bus (ev : EdgeEvent) : (s.dispatch ev).bus = s.bus := by rw [State.dispatch_frame]

@[simp] theorem State.regTick_cfg : (s.regTick).cfg = s.cfg := by rw [State.regTick_frame]
@[simp] theorem State.regTick_now : (s.regTick).now = s.now := by rw [State.regTick_frame]
@[simp] theorem State.regTick_port : (s.regTick).port = s.port := by rw [State.regTick_frame]
@[simp] theorem State.regTick_pins : (s.regTick).pins = s.pins := by rw [State.regTick_frame]
@[simp] theorem State.regTick_clk : (s.regTick).clk = s.clk := by rw [State.regTick_frame]
@[simp] theorem State.regTick_adc : (s.regTick).adc = s.adc := by rw [State.regTick_frame]
@[simp] theorem State.regTick_temp : (s.regTick).temp = s.temp := by rw [State.regTick_frame]
@[simp] theorem State.regTick_range : (s.regTick).range = s.range := by rw [State.regTick_frame]
@[simp] theorem State.regTick_flow : (s.regTick).flow = s.flow := by rw [State.regTick_frame]
@[simp] theorem State.regTick_btn : (s.regTick).btn = s.btn := by rw [State.regTick_frame]
@[simp] theorem State.regTick_ntf : (s.regTick).ntf = s.ntf := by rw [State.regTick_frame]
@[simp] theorem State.regTick_outside : (s.regTick).outside = s.outside := by rw [State.regTick_frame]
@[simp] theorem State.regTick_responses : (s.regTick).responses = s.responses := by rw [State.regTick_frame]
@[simp] theorem State.regTick_bus : (s.regTick).bus = s.bus := by rw [State.regTick_frame]

end Sys2Proof.Machine
end

