-- ==== Sys2Proof/Laws/Schedule.lean ====
section
/-! SUPPORT. Which timed actions each shared operation touches, and how it can end a hold: the two facts about an operation
from which the invariants of the schedule follow. -/

namespace Sys2Proof.Machine

/-- `s'` has the time of `s`, and its timed actions but for those in `l`, each of which is as it was, not pending, or
pending at a time not before now. -/
def Touches (l : List Action) (s s' : State) : Prop :=
  s'.now = s.now ∧ ∀ a, s'.timers.get a = s.timers.get a ∨
    (a ∈ l ∧ (s'.timers.get a = none ∨ ∃ d, s.now ≤ d ∧ s'.timers.get a = some d))

theorem Touches.of_eq {l : List Action} {s s' : State} (hn : s'.now = s.now) (h : s'.timers = s.timers) :
    Touches l s s' := ⟨hn, fun _ => .inl (by rw [h])⟩

theorem Touches.refl (l : List Action) (s : State) : Touches l s s := .of_eq rfl rfl

theorem Touches.trans {l : List Action} {s s' s'' : State} (h : Touches l s s') (h' : Touches l s' s'') :
    Touches l s s'' := by
  refine ⟨h'.1.trans h.1, fun a => ?_⟩
  rcases h'.2 a with e | e
  · rw [e]; exact h.2 a
  · rw [h.1] at e; exact .inr e

theorem Touches.mono {l l' : List Action} {s s' : State} (h : Touches l s s') (hl : l ⊆ l') : Touches l' s s' :=
  ⟨h.1, fun a => (h.2 a).imp id fun e => ⟨hl e.1, e.2⟩⟩

/-- Setting one action, to nothing or to a time not before now. -/
theorem Touches.set {l : List Action} {s s' : State} {a : Action} {due : Option Nat} (hn : s'.now = s.now)
    (ht : s'.timers = s.timers.set a due) (ha : a ∈ l) (hd : ∀ d, due = some d → s.now ≤ d) : Touches l s s' := by
  refine ⟨hn, fun b => ?_⟩
  rw [ht, Timers.get_set]
  by_cases e : b = a
  · subst e
    rw [if_pos rfl]
    cases due with
    | none => exact .inr ⟨ha, .inl rfl⟩
    | some d => exact .inr ⟨ha, .inr ⟨d, hd d rfl, rfl⟩⟩
  · rw [if_neg e]; exact .inl rfl

/-- An action outside the list is as it was. -/
theorem Touches.get {l : List Action} {s s' : State} (h : Touches l s s') {a : Action} (ha : a ∉ l) :
    s'.timers.get a = s.timers.get a := (h.2 a).resolve_right fun e => ha e.1

/-- `s'` holds the port as `s` does, or the hold has ended and its deadline with it (R40). -/
def Lifts (s s' : State) : Prop :=
  (s'.port = s.port ∧ s'.timers.hostDeadline = s.timers.hostDeadline) ∨
    (s'.port = .idle ∧ s'.timers.hostDeadline = none)

theorem Lifts.refl (s : State) : Lifts s s := .inl ⟨rfl, rfl⟩

theorem Lifts.trans {s s' s'' : State} (h : Lifts s s') (h' : Lifts s' s'') : Lifts s s'' := by
  rcases h' with ⟨p, q⟩ | h'
  · unfold Lifts; rw [p, q]; exact h
  · exact .inr h'

theorem Lifts.of_eq {s s' : State} (hp : s'.port = s.port) (ht : s'.timers.hostDeadline = s.timers.hostDeadline) :
    Lifts s s' := .inl ⟨hp, ht⟩

theorem State.complete_lifts (s : State) (st : Status) (rs : List Val) : Lifts s (s.complete st rs) := .inr ⟨rfl, rfl⟩

theorem State.complete_touches {l : List Action} (s : State) (st : Status) (rs : List Val) (h : Action.hostDeadline ∈ l) :
    Touches l s (s.complete st rs) := .set (a := .hostDeadline) (due := none) rfl rfl h (by simp)

theorem State.schedule_touches {l : List Action} (s : State) {a : Action} {d : Nat} (h : a ∈ l) (hd : s.now ≤ d) :
    Touches l s (s.schedule a d) := .set (a := a) (due := some d) rfl rfl h (by simpa using hd)

theorem State.schedule_lifts (s : State) {a : Action} {d : Nat} (h : a ≠ .hostDeadline) : Lifts s (s.schedule a d) := by
  cases a <;> first | exact absurd rfl h | exact .refl s

theorem State.now_le_startTime (s : State) : s.now ≤ s.startTime := by
  unfold State.startTime; split
  · exact le_rfl
  · exact le_max_left _ _

/-! ### The ADC master -/

theorem State.deliver_touches (s : State) (req : AdcReq) (st : Status) (v : Real64) :
    Touches [.hostDeadline, .adcPoll] s (s.deliver req st v) := by
  cases req
  · exact s.complete_touches _ _ (by simp)
  · exact .of_eq (by simp) (by simp [State.deliver])
  · exact s.complete_touches _ _ (by simp)

theorem State.deliver_lifts (s : State) (req : AdcReq) (st : Status) (v : Real64) : Lifts s (s.deliver req st v) := by
  cases req
  · exact s.complete_lifts _ _
  · exact .of_eq (by simp [State.deliver]) (by simp [State.deliver])
  · exact s.complete_lifts _ _

theorem State.startNext_touches_lifts (l : List (BitVec 2 × AdcReq)) (s : State) :
    Touches [.hostDeadline, .adcPoll] s (s.startNext l) ∧ Lifts s (s.startNext l) := by
  induction l generalizing s with
  | nil => exact ⟨.of_eq rfl rfl, .of_eq rfl rfl⟩
  | cons r l ih =>
    obtain ⟨ch, req⟩ := r
    rw [State.startNext_cons]
    split
    · exact ⟨.set (a := .adcPoll) rfl rfl (by simp) (by simp), .of_eq rfl rfl⟩
    · refine ⟨Touches.trans ?_ (ih _).1, Lifts.trans ?_ (ih _).2⟩
      · exact Touches.trans (.of_eq rfl rfl) (State.deliver_touches _ _ _ _)
      · exact Lifts.trans (.of_eq rfl rfl) (State.deliver_lifts _ _ _ _)

theorem State.finish_touches_lifts (s : State) (req : AdcReq) (st : Status) (v : Real64) :
    Touches [.hostDeadline, .adcPoll] s (s.finish req st v) ∧ Lifts s (s.finish req st v) := by
  unfold State.finish
  simp only
  have h := State.startNext_touches_lifts
    (State.deliver { s with adc := { s.adc with phase := .idle } } req st v).adc.queue
    (State.deliver { s with adc := { s.adc with phase := .idle } } req st v)
  refine ⟨Touches.trans ?_ h.1, Lifts.trans ?_ h.2⟩
  · exact Touches.trans (.of_eq rfl rfl) (State.deliver_touches _ _ _ _)
  · exact Lifts.trans (.of_eq rfl rfl) (State.deliver_lifts _ _ _ _)

theorem State.request_touches_lifts (s : State) (ch : BitVec 2) (req : AdcReq) :
    Touches [.hostDeadline, .adcPoll] s (s.request ch req) ∧ Lifts s (s.request ch req) := by
  unfold State.request
  split
  · exact State.startNext_touches_lifts _ _
  · exact ⟨.of_eq rfl rfl, .of_eq rfl rfl⟩

theorem State.poll_touches_lifts (s : State) (req : AdcReq) (t0 : Nat) :
    Touches [.hostDeadline, .adcPoll] s (s.poll req t0) ∧ Lifts s (s.poll req t0) := by
  have after : ∀ (s' : State) (st : Status) (v : Real64), s'.now = s.now → s'.timers = s.timers → s'.port = s.port →
      Touches [.hostDeadline, .adcPoll] s (s'.finish req st v) ∧ Lifts s (s'.finish req st v) :=
    fun s' st v hn ht hp => ⟨Touches.trans (.of_eq hn ht) (s'.finish_touches_lifts req st v).1,
      Lifts.trans (.of_eq hp (by rw [ht])) (s'.finish_touches_lifts req st v).2⟩
  have n := s.readReg_now ptrConfig
  have t := s.readReg_timers ptrConfig
  have p := s.readReg_port ptrConfig
  unfold State.poll
  split
  · rename_i s1 h1
    rw [h1] at n t p
    exact after _ _ _ n t p
  · rename_i c s1 h1
    rw [h1] at n t p
    simp only at n t p
    split
    · have n' := s1.readReg_now ptrConversion
      have t' := s1.readReg_timers ptrConversion
      have p' := s1.readReg_port ptrConversion
      split
      · rename_i s2 h2
        rw [h2] at n' t' p'
        exact after _ _ _ (n'.trans n) (t'.trans t) (p'.trans p)
      · rename_i raw s2 h2
        rw [h2] at n' t' p'
        exact after _ _ _ (n'.trans n) (t'.trans t) (p'.trans p)
    · split
      · exact after _ _ _ n t p
      · refine ⟨.set (a := .adcPoll) (due := some (s1.now + s1.cfg.adcPollUs)) n (by rw [← t]; rfl) (by simp) ?_,
          .of_eq p (by rw [← t]; rfl)⟩
        simp [n]

theorem State.ladderPoll_touches_lifts (s : State) :
    Touches [.hostDeadline, .adcPoll] s s.ladderPoll ∧ Lifts s s.ladderPoll := by
  unfold State.ladderPoll
  split
  · exact ⟨.refl _ _, .refl _⟩
  · simp only
    split
    · exact ⟨.of_eq (by simp) (by simp), .of_eq (by simp) (by simp)⟩
    · have := State.request_touches_lifts { s with btn := { s.btn with polling := true } } s.cfg.btnAdcCh .btn
      exact ⟨Touches.trans (.of_eq rfl rfl) this.1, Lifts.trans (.of_eq rfl rfl) this.2⟩

theorem State.btnPoll_touches_lifts (s : State) :
    Touches [.hostDeadline, .adcPoll, .btnPoll] s s.btnPoll ∧ Lifts s s.btnPoll := by
  unfold State.btnPoll
  split
  · exact ⟨.set (a := .btnPoll) (due := some (s.now + s.cfg.btnPollUs)) (by simp) (by simp) (by simp) (by simp),
      .of_eq (by simp) (by simp [Timers.set])⟩
  · have := State.ladderPoll_touches_lifts (s.schedule .btnPoll (s.now + s.cfg.btnPollUs))
    exact ⟨(s.schedule_touches (by simp) (by simp)).trans (this.1.mono (by simp)),
      (s.schedule_lifts (by simp)).trans this.2⟩

/-! ### The range finder -/

theorem State.completeReady_touches_lifts (s : State) :
    Touches [.hostDeadline] s s.completeReady ∧ Lifts s s.completeReady := by
  unfold State.completeReady
  split
  · exact ⟨s.complete_touches _ _ (by simp), s.complete_lifts _ _⟩
  · exact ⟨.refl _ _, .refl _⟩

theorem State.hostResult_touches_lifts (s : State) (r : Real64) (b : Bool) :
    Touches [.hostDeadline, .rangeHostTrig] s (s.hostResult r b) ∧ Lifts s (s.hostResult r b) := by
  unfold State.hostResult
  split
  · split
    · exact ⟨s.complete_touches _ _ (by simp), s.complete_lifts _ _⟩
    · exact ⟨Touches.trans (.of_eq rfl rfl) ((s.publish r).complete_touches _ _ (by simp)),
        (s.publish r).complete_lifts _ _⟩
  · split
    · exact ⟨Touches.trans (.of_eq rfl rfl) ((s.publish r).complete_touches _ _ (by simp)),
        (s.publish r).complete_lifts _ _⟩
    · split
      · exact ⟨s.complete_touches _ _ (by simp), s.complete_lifts _ _⟩
      · exact ⟨s.schedule_touches (by simp) s.now_le_startTime, s.schedule_lifts (by simp)⟩
  · exact ⟨.refl _ _, .refl _⟩

theorem State.samplerResult_touches_lifts (s : State) (r : Real64) :
    Touches [.hostDeadline, .rangeSample, .rangeRetry] s (s.samplerResult r) ∧ Lifts s (s.samplerResult r) := by
  unfold State.samplerResult
  split
  · have h := (s.publish r).completeReady_touches_lifts
    refine ⟨((Touches.trans (.of_eq rfl rfl) (h.1.mono (by simp))).trans (State.schedule_touches _ (by simp) ?_)),
      (Lifts.trans (.of_eq rfl rfl) h.2).trans (State.schedule_lifts _ (by simp))⟩
    exact State.now_le_startTime _
  · split
    · refine ⟨.set (a := .rangeRetry) rfl rfl (by simp) ?_, .of_eq rfl rfl⟩
      intro d hd
      cases hd
      exact State.now_le_startTime _
    · refine ⟨.set (a := .rangeSample) (due := some (State.startTime { (s.storedReal (s.smoothed r)).2 with
          range := { (s.storedReal (s.smoothed r)).2.range with
            filtered := (s.storedReal (s.smoothed r)).1, count := (s.storedReal (s.smoothed r)).2.range.count + 1 } }))
          (by simp) (by simp) (by simp) ?_, .of_eq (by simp) (by simp [Timers.set])⟩
      intro d hd
      cases hd
      refine le_trans (le_of_eq ?_) (State.now_le_startTime _)
      simp

theorem State.measureDone_touches_lifts (s : State) (r : Real64) (b : Bool) :
    Touches [.hostDeadline, .rangeHostTrig, .rangeSample, .rangeRetry] s (s.measureDone r b) ∧
      Lifts s (s.measureDone r b) := by
  unfold State.measureDone
  simp only
  split
  · have h := State.hostResult_touches_lifts { s with range := { s.range with phase := .idle } } r b
    exact ⟨Touches.trans (.of_eq rfl rfl) (h.1.mono (by simp)), Lifts.trans (.of_eq rfl rfl) h.2⟩
  · have h := State.samplerResult_touches_lifts { s with range := { s.range with phase := .idle } } r
    exact ⟨Touches.trans (.of_eq rfl rfl) (h.1.mono (by simp)), Lifts.trans (.of_eq rfl rfl) h.2⟩

theorem State.echoEdge_touches_lifts (s : State) (level : Bool) (ts : U32) :
    Touches [.hostDeadline, .rangeHostTrig, .rangeSample, .rangeRetry, .rangeEchoTimeout] s (s.echoEdge level ts) ∧
      Lifts s (s.echoEdge level ts) := by
  unfold State.echoEdge
  split
  · exact ⟨.set (a := .rangeEchoTimeout) rfl rfl (by simp) (by simp), .of_eq rfl rfl⟩
  · split
    · have h := State.measureDone_touches_lifts (s.cancel .rangeEchoTimeout)
        (distance s.cfg.realFmt s.range.speed (duration s.cfg s.range.rise ts)) false
      refine ⟨Touches.trans ?_ (h.1.mono ?_), Lifts.trans (.of_eq rfl rfl) h.2⟩
      · exact .set (a := .rangeEchoTimeout) (due := none) rfl rfl (by simp) (by simp)
      · simp
    · exact ⟨.refl _ _, .refl _⟩

/-! ### The dispatch -/

theorem State.waitEdgeDone_touches_lifts (s : State) (ev : EdgeEvent) :
    Touches [.hostDeadline] s (s.waitEdgeDone ev) ∧ Lifts s (s.waitEdgeDone ev) := by
  unfold State.waitEdgeDone
  split
  · split
    · exact ⟨s.complete_touches _ _ (by simp), s.complete_lifts _ _⟩
    · exact ⟨.refl _ _, .refl _⟩
  · exact ⟨.refl _ _, .refl _⟩

theorem State.ownerHandler_touches_lifts (s : State) (ev : EdgeEvent) :
    Touches [.hostDeadline, .rangeHostTrig, .rangeSample, .rangeRetry, .rangeEchoTimeout, .flowIdle] s
      (s.ownerHandler ev) ∧ Lifts s (s.ownerHandler ev) := by
  unfold State.ownerHandler
  split
  · exact ⟨.of_eq rfl rfl, .of_eq rfl rfl⟩
  · have h := s.echoEdge_touches_lifts ev.level ev.ts
    exact ⟨h.1.mono (by simp), h.2⟩
  · rw [State.flowEdge_frame]
    exact ⟨.set (a := .flowIdle) rfl rfl (by simp) (by simp), .of_eq rfl rfl⟩
  all_goals exact ⟨.refl _ _, .refl _⟩

/-- A dispatch touches the echo's, the sampler's, the host's and the flow's timed actions only, and can end a hold
(R214, R225, R351, R370). -/
theorem State.dispatch_touches_lifts (s : State) (ev : EdgeEvent) :
    Touches [.hostDeadline, .rangeHostTrig, .rangeSample, .rangeRetry, .rangeEchoTimeout, .flowIdle] s
      (s.dispatch ev) ∧ Lifts s (s.dispatch ev) := by
  have h := s.ownerHandler_touches_lifts ev
  have h' := (s.ownerHandler ev).waitEdgeDone_touches_lifts ev
  unfold State.dispatch
  exact ⟨(h.1.trans (h'.1.mono (by simp))).trans (.of_eq (by simp) (by simp)),
    (h.2.trans h'.2).trans (.of_eq (by simp) (by simp))⟩

end Sys2Proof.Machine
end

