-- ==== Sys2Proof/Laws/Step.lean ====
section
/-! SUPPORT. What one step can be: the inversion of `step`, said once, so that an invariant's proof is a case for each
instruction and each timed action. -/

namespace Sys2Proof

/-- What an opcode's operand parser answers is an instruction with that opcode byte. -/
theorem opcodeRow_head {p : Frame → Option Instr} {op n : Nat} {f : Frame} {i : Instr}
    (h : opcodeRow op = some (n, p)) (hf : p f = some i) : (encode i).head? = some (BitVec.ofNat 8 op) := by
  unfold opcodeRow at h
  split at h <;> simp only [Option.some.injEq, Prod.mk.injEq, reduceCtorEq] at h
  all_goals
    obtain ⟨-, rfl⟩ := h
    simp only [formHC0, formByte, formTwoBytes, formPW, formPBW, formW, formR, formRR, formRRR] at hf
    split at hf
    · cases hf; rfl
    · cases hf

/-- A frame decoded on a port gives an instruction of that port, with the frame's opcode byte. -/
theorem decodeOn_port {port : PortName} {f : Frame} {i : Instr} (h : decodeOn port f = .ok i) : i.port = port := by
  unfold decodeOn at h
  split at h
  · cases h
  · rename_i opcode operands
    split at h
    · cases h
    · rename_i hp
      split at h
      · cases h
      · rename_i row
        split at h
        · cases h
        · rename_i j hj
          cases h
          have hd := opcodeRow_head row hj
          rw [BitVec.ofNat_toNat, BitVec.setWidth_eq] at hd
          unfold Instr.port
          cases he : encode i with
          | nil => simp [he] at hd
          | cons b bs =>
            simp only [he, List.head?_cons, Option.some.injEq] at hd
            subst hd
            simpa [framePort] using hp

namespace Machine

/-- Everything one step can be, `o` being what is left of the outside's lists once the choice and the frame are taken:
no step, an ILLEGAL response, a host command on an IDLE port, an environment input, or an enabled timed action. -/
theorem step_cases {s t : State} (h : step s = .next t) :
    s.cfg.wellFormed = true ∧ ∃ o : Outside,
      t = { s with outside := o } ∨
      t = State.raise { s with outside := o } .illegal [] ∨
      (∃ i : Instr, i.port = .host ∧ s.port = .idle ∧ exec i { s with outside := o } = .next t) ∨
      (∃ i : Instr, i.port = .environment ∧ exec i { s with outside := o } = .next t) ∨
      (∃ a due, s.timers.get a = some due ∧ due ≤ s.now ∧
        fire a (State.cancel { s with outside := o } a) = .next t) := by
  unfold step at h
  split at h
  · rename_i hc
    refine ⟨hc, ?_⟩
    have f := s.nextPick_frame
    generalize s.nextPick.2 = s' at *
    generalize s'.outside = o at f
    subst f
    generalize s.nextPick.1 = p at h
    unfold take at h
    split at h
    · unfold acceptHost at h
      split at h
      · cases h; exact ⟨_, .inl rfl⟩
      · cases h; exact ⟨_, .inl rfl⟩
      · rename_i f rest hp hf
        simp only at h hp
        split at h
        · rename_i i hi
          exact ⟨_, .inr (.inr (.inl ⟨i, decodeOn_port hi, hp, h⟩))⟩
        · cases h; exact ⟨_, .inr (.inl rfl)⟩
        · cases h
    · unfold takeEnv at h
      split at h
      · cases h; exact ⟨_, .inl rfl⟩
      · simp only at h
        split at h
        · rename_i i hi
          exact ⟨_, .inr (.inr (.inr (.inl ⟨i, decodeOn_port hi, h⟩)))⟩
        · cases h; exact ⟨_, .inl rfl⟩
        · cases h
    · rename_i a
      unfold takeTimed at h
      split at h
      · cases h; exact ⟨_, .inl rfl⟩
      · rename_i due hd
        split at h
        · rename_i hle
          exact ⟨_, .inr (.inr (.inr (.inr ⟨a, due, hd, hle, h⟩)))⟩
        · cases h; exact ⟨_, .inl rfl⟩
  · cases h

end Machine

end Sys2Proof
end

