-- ==== Sys2Proof/Laws/Exec.lean ====
section
/-! SUPPORT. What any instruction and any timed action can do to the schedule, to a hold and to the PWM: one case analysis
over all of them, cited by the invariants' proofs. -/

namespace Sys2Proof.Machine

/-- No instruction but ENV.TIME moves time, and every timed action it schedules is due no earlier than now. -/
theorem exec_touches {i : Instr} {s t : State} (hne : ∀ x, i ≠ .envTime x) (h : exec i s = .next t) :
    Touches Action.all s t := by
  cases i <;> simp only [exec, execGpioSetdir, execGpioWrite, execGpioRead, execGpioPulse, execGpioSetedge, execGpioWaitedge,
    execGpioSubscribe, execGpioUnsubscribe, execClkNow, execSwStart, execSwStop, execSwElapsed, execAdcOpen,
    execAdcGetvoltage, execPwmSetvalue, execPwmSetrange, execPwmSetdivisor, execPwmEnable, execPwmDisable,
    execPwmGet, execTempGet, execTempDiag, execRangeMeasure, execRangeGet, execRangeReady, execRangeSetspeed,
    execFlowGetcount, execFlowGetlitres, execFlowNotifyafter, execFlowStatus, execBtnGet, execBtnGetmask,
    execPressGetbar, execPidSetgains, execPidSetlimits, execPidUpdate, execPidRead, execRegStart, execRegStop,
    execRegSettarget, execRegSettimestep, execRegSetpower, execRegRead, execRegStatus, execNtfPop, execNtfEnable,
    execNtfStatus, execEnvPin, execEnvTime, Host.Outcome.next.injEq] at h <;>
  subst h <;> (repeat' split) <;> (first
   | exact .of_eq rfl rfl
   | (refine .of_eq ?_ ?_ <;> simp <;> done)
   | (exact absurd rfl (hne _))
   | skip)
  · exact .set (a := .hostDeadline) rfl rfl (by simp) (by simp)
  · exact .set (a := .hostDeadline) rfl rfl (by simp) (by simp)
  · exact Touches.trans (.of_eq rfl rfl) ((State.request_touches_lifts _ _ _).1.mono (by simp))
  · exact .set (a := .rangeHostTrig) rfl rfl (by simp) (by rintro _ ⟨⟩; exact s.now_le_startTime)
  · exact .set (a := .hostDeadline) rfl rfl (by simp) (by simp)
  · exact .set (a := .rangeHostTrig) rfl rfl (by simp) (by rintro _ ⟨⟩; exact s.now_le_startTime)
  · exact Touches.trans (.of_eq rfl rfl) ((State.request_touches_lifts _ _ _).1.mono (by simp))
  · exact .set (a := .regTick) (due := some s.now) rfl rfl (by simp) (by simp)
  · exact .set (a := .regTick) (due := some s.now) rfl rfl (by simp) (by simp)
  · exact .set (a := .regTick) rfl rfl (by simp) (by simp)
  · exact Touches.trans (.of_eq rfl rfl) ((State.dispatch_touches_lifts _ _).1.mono (by simp))

/-- The timed actions that a timed action can touch when it fires. -/
def touched : Action → List Action
  | .hostDeadline => [.hostDeadline]
  | .rangeSample => [.rangeTrigEnd]
  | .rangeRetry => [.rangeTrigEnd]
  | .rangeHostTrig => [.rangeTrigEnd]
  | .rangeTrigEnd => [.rangeEchoTimeout]
  | .rangeEchoTimeout => [.hostDeadline, .rangeHostTrig, .rangeSample, .rangeRetry]
  | .btnPoll => [.hostDeadline, .adcPoll, .btnPoll]
  | .adcPoll => [.hostDeadline, .adcPoll]
  | .regTick => [.regTick]
  | .flowIdle => []

/-- A timed action touches its own successors only; a tick's successor is due no earlier than now if the tick's own due
time is not past. -/
theorem fire_touches {a : Action} {s t : State} (h : fire a s = .next t) (hr : a = .regTick → s.now ≤ s.reg.nextDue) :
    Touches ((touched a)) s t := by
  cases a <;> simp only [fire, deadline] at h <;> (repeat' split at h) <;> cases h
  · exact .set (a := .hostDeadline) rfl rfl (by simp [touched]) (by simp)
  · exact .set (a := .hostDeadline) rfl rfl (by simp [touched]) (by simp)
  · exact .set (a := .hostDeadline) rfl rfl (by simp [touched]) (by simp)
  · exact .set (a := .rangeTrigEnd) rfl rfl (by simp [touched]) (by simp)
  · exact .set (a := .rangeTrigEnd) rfl rfl (by simp [touched]) (by simp)
  · exact .set (a := .rangeTrigEnd) rfl rfl (by simp [touched]) (by simp)
  · exact .set (a := .rangeEchoTimeout) rfl rfl (by simp [touched]) (by simp)
  · exact (State.measureDone_touches_lifts _ _ _).1
  · exact s.btnPoll_touches_lifts.1
  · exact (s.poll_touches_lifts _ _).1
  · unfold State.regTick
    simp only
    have := hr rfl
    split
    · exact .set (a := .regTick) rfl rfl (by simp [touched]) (by simp; omega)
    · split
      · exact .set (a := .regTick) rfl rfl (by simp [touched]) (by simp)
      · exact .set (a := .regTick) rfl rfl (by simp [touched]) (by simp; omega)
  · exact .of_eq rfl rfl

/-- A timed action leaves a hold alone or ends it (R40). -/
theorem fire_lifts {a : Action} {s t : State} (h : fire a s = .next t) : Lifts s t := by
  cases a <;> simp only [fire, deadline] at h <;> (repeat' split at h) <;> cases h
  · exact .inr ⟨rfl, rfl⟩
  · exact .inr ⟨rfl, rfl⟩
  · exact .inr ⟨rfl, rfl⟩
  · exact .refl _
  · exact .refl _
  · exact .refl _
  · exact .refl _
  · exact (State.measureDone_touches_lifts _ _ _).2
  · exact s.btnPoll_touches_lifts.2
  · exact (s.poll_touches_lifts _ _).2
  · unfold State.regTick
    simp only
    split
    · exact .of_eq rfl rfl
    · split <;> exact .of_eq rfl rfl
  · exact .of_eq rfl rfl

/-- Taking a timed action other than the deadline leaves a hold alone. -/
theorem cancel_lifts (s : State) {a : Action} (h : a ≠ .hostDeadline) : Lifts s (s.cancel a) := by
  cases a <;> first | exact absurd rfl h | exact .refl s

/-- Every way an instruction can change the PWM (R282 to R286, R436). -/
theorem exec_pwm {i : Instr} {s t : State} (h : exec i s = .next t) :
    t.pwm = s.pwm ∨ (∃ x, realNaN x = false ∧ t.pwm = (s.pwmSet x).pwm) ∨
    (∃ r : U32, r ≠ 0 ∧ t.pwm = { s.pwm with range := r, value := onTicks s.pwm.frac r }) ∨
    (∃ d : U32, d ≠ 0 ∧ d.toNat ≤ s.cfg.pwmDivMax ∧ t.pwm = { s.pwm with divisor := d }) ∨
    (∃ b, t.pwm = { s.pwm with enabled := b }) := by
  cases i <;> simp only [exec, execGpioSetdir, execGpioWrite, execGpioRead, execGpioPulse, execGpioSetedge, execGpioWaitedge,
    execGpioSubscribe, execGpioUnsubscribe, execClkNow, execSwStart, execSwStop, execSwElapsed, execAdcOpen,
    execAdcGetvoltage, execPwmSetvalue, execPwmSetrange, execPwmSetdivisor, execPwmEnable, execPwmDisable,
    execPwmGet, execTempGet, execTempDiag, execRangeMeasure, execRangeGet, execRangeReady, execRangeSetspeed,
    execFlowGetcount, execFlowGetlitres, execFlowNotifyafter, execFlowStatus, execBtnGet, execBtnGetmask,
    execPressGetbar, execPidSetgains, execPidSetlimits, execPidUpdate, execPidRead, execRegStart, execRegStop,
    execRegSettarget, execRegSettimestep, execRegSetpower, execRegRead, execRegStatus, execNtfPop, execNtfEnable,
    execNtfStatus, execEnvPin, execEnvTime, Host.Outcome.next.injEq] at h <;>
  subst h <;> (repeat' split) <;> (first
   | exact .inl rfl
   | (refine .inl ?_; simp; done)
   | exact .inr (.inr (.inr (.inr ⟨_, rfl⟩)))
   | skip)
  · rename_i h1 h2; exact .inr (.inl ⟨_, realNaN_of_finite (by simpa using h1), rfl⟩)
  · rename_i h1; exact .inr (.inr (.inl ⟨_, h1, rfl⟩))
  · rename_i h1; simp at h1;  exact .inr (.inr (.inr (.inl ⟨_, h1.1, h1.2, rfl⟩)))
  · exact .inr (.inl ⟨zero64, by decide, by simp⟩)
  · exact .inr (.inl ⟨zero64, by decide, by simp⟩)

end Sys2Proof.Machine
end

