-- ==== Sys2Proof/Laws/PerInstr.lean ====
section
/-! SUPPORT. Statements about every instruction, one lemma for each constructor of `Instr`. -/

namespace Sys2Proof.Laws.EncodedFrame

open Sys2Proof

/-- An instruction's frame is its opcode byte, which R146 lists, and as many operand bytes as R149 gives that opcode. -/
def Statement (i : Instr) : Prop :=
  ∃ (opcode : Byte) (operands : Frame) (n : Nat) (parse : Frame → Option Instr),
    encode i = opcode :: operands ∧ opcodeRow opcode.toNat = some (n, parse) ∧ operands.length = n

theorem gpioSetdir (pin dir : Byte) : Statement (.gpioSetdir pin dir) := ⟨_, _, _, _, rfl, rfl, rfl⟩

theorem gpioWrite (pin level : Byte) : Statement (.gpioWrite pin level) := ⟨_, _, _, _, rfl, rfl, rfl⟩

theorem gpioRead (pin : Byte) : Statement (.gpioRead pin) := ⟨_, _, _, _, rfl, rfl, rfl⟩

theorem gpioPulse (pin level : Byte) (width : U32) : Statement (.gpioPulse pin level width) := ⟨_, _, _, _, rfl, rfl, rfl⟩

theorem gpioSetedge (pin mode : Byte) : Statement (.gpioSetedge pin mode) := ⟨_, _, _, _, rfl, rfl, rfl⟩

theorem gpioWaitedge (pin : Byte) (timeout : U32) : Statement (.gpioWaitedge pin timeout) := ⟨_, _, _, _, rfl, rfl, rfl⟩

theorem gpioSubscribe (pin : Byte) : Statement (.gpioSubscribe pin) := ⟨_, _, _, _, rfl, rfl, rfl⟩

theorem gpioUnsubscribe (pin : Byte) : Statement (.gpioUnsubscribe pin) := ⟨_, _, _, _, rfl, rfl, rfl⟩

theorem clkNow : Statement .clkNow := ⟨_, _, _, _, rfl, rfl, rfl⟩

theorem swStart : Statement .swStart := ⟨_, _, _, _, rfl, rfl, rfl⟩

theorem swStop : Statement .swStop := ⟨_, _, _, _, rfl, rfl, rfl⟩

theorem swElapsed : Statement .swElapsed := ⟨_, _, _, _, rfl, rfl, rfl⟩

theorem adcOpen : Statement .adcOpen := ⟨_, _, _, _, rfl, rfl, rfl⟩

theorem adcGetvoltage (ch : Byte) : Statement (.adcGetvoltage ch) := ⟨_, _, _, _, rfl, rfl, rfl⟩

theorem pwmSetvalue (x : Real64) : Statement (.pwmSetvalue x) := ⟨_, _, _, _, rfl, rfl, rfl⟩

theorem pwmSetrange (range : U32) : Statement (.pwmSetrange range) := ⟨_, _, _, _, rfl, rfl, rfl⟩

theorem pwmSetdivisor (divisor : U32) : Statement (.pwmSetdivisor divisor) := ⟨_, _, _, _, rfl, rfl, rfl⟩

theorem pwmEnable : Statement .pwmEnable := ⟨_, _, _, _, rfl, rfl, rfl⟩

theorem pwmDisable : Statement .pwmDisable := ⟨_, _, _, _, rfl, rfl, rfl⟩

theorem pwmGet : Statement .pwmGet := ⟨_, _, _, _, rfl, rfl, rfl⟩

theorem tempGet : Statement .tempGet := ⟨_, _, _, _, rfl, rfl, rfl⟩

theorem tempDiag : Statement .tempDiag := ⟨_, _, _, _, rfl, rfl, rfl⟩

theorem rangeMeasure : Statement .rangeMeasure := ⟨_, _, _, _, rfl, rfl, rfl⟩

theorem rangeGet : Statement .rangeGet := ⟨_, _, _, _, rfl, rfl, rfl⟩

theorem rangeReady : Statement .rangeReady := ⟨_, _, _, _, rfl, rfl, rfl⟩

theorem rangeSetspeed (c : Real64) : Statement (.rangeSetspeed c) := ⟨_, _, _, _, rfl, rfl, rfl⟩

theorem flowGetcount : Statement .flowGetcount := ⟨_, _, _, _, rfl, rfl, rfl⟩

theorem flowGetlitres : Statement .flowGetlitres := ⟨_, _, _, _, rfl, rfl, rfl⟩

theorem flowNotifyafter (litres : Real64) : Statement (.flowNotifyafter litres) := ⟨_, _, _, _, rfl, rfl, rfl⟩

theorem flowStatus : Statement .flowStatus := ⟨_, _, _, _, rfl, rfl, rfl⟩

theorem btnGet (index : Byte) : Statement (.btnGet index) := ⟨_, _, _, _, rfl, rfl, rfl⟩

theorem btnGetmask : Statement .btnGetmask := ⟨_, _, _, _, rfl, rfl, rfl⟩

theorem pressGetbar : Statement .pressGetbar := ⟨_, _, _, _, rfl, rfl, rfl⟩

theorem pidSetgains (p i d : Real64) : Statement (.pidSetgains p i d) := ⟨_, _, _, _, rfl, rfl, rfl⟩

theorem pidSetlimits (min max : Real64) : Statement (.pidSetlimits min max) := ⟨_, _, _, _, rfl, rfl, rfl⟩

theorem pidUpdate (error position : Real64) : Statement (.pidUpdate error position) := ⟨_, _, _, _, rfl, rfl, rfl⟩

theorem pidRead : Statement .pidRead := ⟨_, _, _, _, rfl, rfl, rfl⟩

theorem regStart : Statement .regStart := ⟨_, _, _, _, rfl, rfl, rfl⟩

theorem regStop : Statement .regStop := ⟨_, _, _, _, rfl, rfl, rfl⟩

theorem regSettarget (t : Real64) : Statement (.regSettarget t) := ⟨_, _, _, _, rfl, rfl, rfl⟩

theorem regSettimestep (sec : Real64) : Statement (.regSettimestep sec) := ⟨_, _, _, _, rfl, rfl, rfl⟩

theorem regSetpower (on : Byte) : Statement (.regSetpower on) := ⟨_, _, _, _, rfl, rfl, rfl⟩

theorem regRead : Statement .regRead := ⟨_, _, _, _, rfl, rfl, rfl⟩

theorem regStatus : Statement .regStatus := ⟨_, _, _, _, rfl, rfl, rfl⟩

theorem ntfPop : Statement .ntfPop := ⟨_, _, _, _, rfl, rfl, rfl⟩

theorem ntfEnable (mask : Byte) : Statement (.ntfEnable mask) := ⟨_, _, _, _, rfl, rfl, rfl⟩

theorem ntfStatus : Statement .ntfStatus := ⟨_, _, _, _, rfl, rfl, rfl⟩

theorem envPin (pin level : Byte) : Statement (.envPin pin level) := ⟨_, _, _, _, rfl, rfl, rfl⟩

theorem envTime (t : U64) : Statement (.envTime t) := ⟨_, _, _, _, rfl, rfl, rfl⟩

end Sys2Proof.Laws.EncodedFrame
end

