-- ==== Sys2Proof/Laws/Requests.lean ====
section
/-! SUPPORT. The account of the ADC's conversion requests (R258): each operation of the ADC master keeps it. -/

namespace Sys2Proof.Machine

/-- The requests in `l` are those that the holds and the button unit wait for (the clauses of `State.RequestsSound`). -/
def ReqInv (s : State) (l : List AdcReq) : Prop :=
  l.count .host = s.awaitsVoltage.toNat ∧ l.count .press = s.awaitsBar.toNat ∧ l.count .btn = s.btn.polling.toNat ∧
  (s.cfg.btnMode = .pins → s.btn.polling = false)

theorem ReqInv.congr {s s' : State} {l} (h : ReqInv s l) (hp : s'.port = s.port) (hb : s'.btn.polling = s.btn.polling)
   (hc : s'.cfg = s.cfg) : ReqInv s' l := by
  unfold ReqInv State.awaitsVoltage State.awaitsBar at *
  rw [hp, hb, hc]; exact h

/-- The port is held by one command. -/
theorem awaits_excl (s : State) : ¬ (s.awaitsVoltage = true ∧ s.awaitsBar = true) := by
  unfold State.awaitsVoltage State.awaitsBar
  split <;> simp_all

/-- A delivery serves the request at the head (R255). -/
theorem deliver_req {s : State} {req l} (st v) (h : ReqInv s (req :: l)) : ReqInv (s.deliver req st v) l := by
  obtain ⟨a, b, c, d⟩ := h
  have e := awaits_excl s
  have x := s.awaitsVoltage.toNat_le
  have y := s.awaitsBar.toNat_le
  have z := s.btn.polling.toNat_le
  cases req
  · simp at a b c
    refine ⟨?_, ?_, by simpa [State.deliver] using c, d⟩ <;> simp [State.deliver, State.awaitsVoltage, State.awaitsBar]
    · have : s.awaitsVoltage = true := by cases hh : s.awaitsVoltage <;> simp_all
      simp [this] at a; simpa using a
    · have : s.awaitsVoltage = true := by cases hh : s.awaitsVoltage <;> simp_all
      have : s.awaitsBar = false := by cases hh : s.awaitsBar <;> simp_all
      rw [this] at b; simpa using b
  · simp at a b c
    refine ⟨by simpa [State.deliver, State.awaitsVoltage] using a, by simpa [State.deliver, State.awaitsBar] using b, ?_, ?_⟩
    · simp only [State.deliver]; rw [State.ladderDone_frame]
      have : s.btn.polling = true := by cases hh : s.btn.polling <;> simp_all
      simp [this] at c; simpa using c
    · simp only [State.deliver]; rw [State.ladderDone_frame]; simp
  · simp at a b c
    refine ⟨?_, ?_, by simpa [State.deliver] using c, d⟩ <;> simp [State.deliver, State.awaitsVoltage, State.awaitsBar]
    · have : s.awaitsBar = true := by cases hh : s.awaitsBar <;> simp_all
      have : s.awaitsVoltage = false := by cases hh : s.awaitsVoltage <;> simp_all
      rw [this] at a; simpa using a
    · have : s.awaitsBar = true := by cases hh : s.awaitsBar <;> simp_all
      simp [this] at b; simpa using b

/-- Starting the waiting requests keeps the account of them (R255, R258). -/
theorem startNext_req (l : List (BitVec 2 × AdcReq)) : ∀ (s : State), ReqInv s (l.map Prod.snd) → s.adc.phase = .idle → 
    s.timers.adcPoll = none → ReqInv (s.startNext l) (s.startNext l).adc.outstanding ∧ (s.startNext l).AdcSound := by
  induction l with
  | nil => intro s h hp ht; exact ⟨ReqInv.congr (s := s) (by simpa [Adc.outstanding, State.startNext, hp] using h) rfl rfl rfl, by simp [State.AdcSound, State.startNext, hp, ht]⟩
  | cons r l ih =>
    intro s h hp ht
    obtain ⟨ch, req⟩ := r
    rw [State.startNext_cons]
    split
    · refine ⟨ReqInv.congr ?_ (s := s) rfl rfl rfl, ?_⟩
      · simpa [Adc.outstanding] using h
      · simp [State.AdcSound, Timers.set]
    · apply ih
      · apply deliver_req
        exact h.congr rfl rfl rfl
      · simp
      · have := (State.deliver_touches { s with
          adc := { s.adc with phase := .idle, queue := l }
          outside := s.outside.nextAck.2
          bus := s.bus ++ [.write s.cfg.adcAddr (ptrConfig :: bytes16 (adcConfigWord s.cfg ch)) false] } req .ioerr zero64)
        cases req <;> simpa [State.deliver, Timers.set] using ht

/-- So does the end of a conversion. -/
theorem finish_req {s : State} {req} (st v) (h : ReqInv s (req :: s.adc.queue.map Prod.snd)) (ht : s.timers.adcPoll = none) :
   ReqInv (s.finish req st v) (s.finish req st v).adc.outstanding ∧ (s.finish req st v).AdcSound := by
  unfold State.finish
  simp only
  apply startNext_req
  · apply deliver_req
    exact ReqInv.congr (s := s) (by simpa using h) rfl rfl rfl
  · simp
  · cases req <;> simpa [State.deliver, Timers.set] using ht

/-- So does a new request. -/
theorem request_req {s : State} {ch req} (h : ReqInv s (req :: s.adc.outstanding)) (ha : s.AdcSound) :
   ReqInv (s.request ch req) (s.request ch req).adc.outstanding ∧ (s.request ch req).AdcSound := by
  unfold State.request
  unfold State.AdcSound at ha
  split
  · rename_i hp
    rw [hp] at ha
    apply startNext_req
    · simpa [Adc.outstanding, hp] using h
    · exact hp
    · exact ha.1
  · rename_i hp
    rw [hp] at ha
    refine ⟨ReqInv.congr (s := s) ?_ rfl rfl rfl, by simpa [State.AdcSound, hp] using ha⟩
    have e : ∀ x : AdcReq, List.count x (Adc.outstanding { s.adc with queue := s.adc.queue ++ [(ch, req)] }) =
        List.count x (req :: s.adc.outstanding) := fun x => by
      simp [Adc.outstanding, hp, List.count_cons, List.count_append]
      omega
    unfold ReqInv at *
    simp only [e]
    exact h

/-- So does a poll. -/
theorem poll_req {s : State} {ch req t0} (hp : s.adc.phase = .converting ch req t0) (h : ReqInv s s.adc.outstanding)
    (ht : s.timers.adcPoll = none) :
   ReqInv (s.poll req t0) (s.poll req t0).adc.outstanding ∧ (s.poll req t0).AdcSound := by
  have h' : ReqInv s (req :: s.adc.queue.map Prod.snd) := by simpa [Adc.outstanding, hp] using h
  have fr := s.readReg_frame ptrConfig
  unfold State.poll
  split
  · rename_i s1 h1
    rw [h1] at fr; simp only at fr
    apply finish_req
    · rw [fr]; exact h'.congr rfl rfl rfl
    · rw [fr]; exact ht
  · rename_i c s1 h1
    rw [h1] at fr; simp only at fr
    split
    · have fr2 := s1.readReg_frame ptrConversion
      split
      · rename_i s2 h2
        rw [h2] at fr2; simp only at fr2
        apply finish_req
        · rw [fr2, fr]; exact h'.congr rfl rfl rfl
        · rw [fr2, fr]; exact ht
      · rename_i raw s2 h2
        rw [h2] at fr2; simp only at fr2
        apply finish_req
        · rw [fr2, fr]; exact h'.congr rfl rfl rfl
        · rw [fr2, fr]; exact ht
    · split
      · apply finish_req
        · rw [fr]; exact h'.congr rfl rfl rfl
        · rw [fr]; exact ht
      · rename_i hlt
        rw [fr] at hlt ⊢
        refine ⟨ReqInv.congr (s := s) (by simpa [Adc.outstanding, hp] using h') rfl rfl rfl, ?_⟩
        simp [State.AdcSound, hp, Timers.set] at hlt ⊢
        omega

end Sys2Proof.Machine
end

