-- ==== Sys2Proof/Laws/Units.lean ====
section
/-! SUPPORT. What the units' own functions answer: one lemma for each, citing its rule. -/

namespace Sys2Proof.Machine

/-! ### Configurations -/

/-- A well-formed configuration meets every clause. -/
theorem wellFormed_iff (c : Config) : c.wellFormed = true ↔
    c.pinsDistinct = true ∧ c.pinsComplete = true ∧ c.pwmInRange = true ∧ c.timesPositive = true ∧
      c.tempOrdered = true ∧ c.ladderOk = true ∧ c.realsFinite = true ∧ c.sizesOk = true ∧ c.formatsOk = true ∧
      c.realsInFormat = true := by
  simp [Config.wellFormed]

/-- A well-formed configuration has a legal `REAL_FMT`. -/
theorem legal_of_wellFormed {c : Config} (h : c.wellFormed = true) : c.realFmt.legal = true := by
  have := ((wellFormed_iff c).1 h).2.2.2.2.2.2.2.2.1
  simp only [Config.formatsOk, Bool.and_eq_true] at this
  exact this.1.1.1.1

/-- Every REAL parameter of a well-formed configuration is a value of `REAL_FMT` (R9, R50). -/
theorem inFormat_of_wellFormed {c : Config} (h : c.wellFormed = true) {x : Real64} (hx : x ∈ c.reals) :
    inFormat c.realFmt x = true := by
  have := ((wellFormed_iff c).1 h).2.2.2.2.2.2.2.2.2
  simp only [Config.realsInFormat, Bool.or_eq_true, decide_eq_true_eq, List.all_eq_true] at this
  rcases this with e | e
  · rw [e]; simp [inFormat]
  · exact e x hx

/-- A well-formed configuration has nothing to round, so that reset takes it as it is (R13, R701). -/
theorem rounded_of_wellFormed {c : Config} (h : c.wellFormed = true) : c.rounded = c := by
  unfold Config.rounded
  split
  · rfl
  · have e : ∀ x ∈ c.reals, toFormat c.realFmt x = x := fun x hx => by
      simpa [inFormat] using inFormat_of_wellFormed h hx
    have el : c.ladderTable.map (toFormat c.realFmt) = c.ladderTable :=
      (List.map_congr_left fun x hx => e x (List.mem_append_right _ hx)).trans (List.map_id _)
    rw [e c.minTemp, e c.maxTemp, e c.speed0, e c.gateM, e c.smoothK, e c.countsPerLitre, e c.regSentinel,
      e c.regTimestep0, el] <;> simp [Config.reals]

/-- Reset takes a well-formed configuration as it is. -/
theorem resetWith_of_wellFormed {c : Config} (h : c.wellFormed = true) (ack : Bool) (answer : Option (Byte × Byte)) :
    State.resetWith c ack answer = State.resetAs c ack answer := by
  unfold State.resetWith
  rw [rounded_of_wellFormed h]

/-! ### REAL operands -/

/-- Everything the free value for an operand beyond the format can be: a finite REAL of the format, of the same sign. -/
theorem someFinite_spec (f : RealFmt) (x : Real64) :
    realFinite (someFinite f x) = true ∧ realSign (someFinite f x) = realSign x ∧
      (f.legal = true → inFormat f (someFinite f x) = true) := by
  unfold someFinite
  simp only
  split
  · rename_i h
    simp only [Bool.and_eq_true, decide_eq_true_eq] at h
    exact ⟨h.1, h.2, fun hf => inFormat_toFormat hf _⟩
  · cases realSign x
    · exact ⟨by decide, by decide, fun _ => inFormat_zero64 f⟩
    · exact ⟨by decide, by decide, fun _ => inFormat_negZero64 f⟩

/-- What a REAL field stores of an operand (R13, R605). -/
theorem State.stores_toReal (s : State) (x : Real64) : s.Stores x (s.toReal x) := by
  unfold State.toReal
  simp only
  split
  · rename_i h
    exact ⟨h, realSign_toFormat _ _, fun _ => rfl, fun hf => inFormat_toFormat hf x⟩
  · rename_i h
    obtain ⟨h1, h2, h3⟩ := someFinite_spec s.cfg.realFmt x
    exact ⟨h1, h2, fun h' => absurd h' h, h3⟩

/-- Under the default `REAL_FMT` a finite operand is stored as it is given (R142). -/
theorem State.toReal_binary64 {s : State} (h : s.cfg.realFmt = .binary64) {x : Real64} (hx : realFinite x = true) :
    s.toReal x = x := by
  have := (s.stores_toReal x).2.2.1
  rw [h, toFormat_binary64] at this
  exact this hx

/-! ### The PWM -/

/-- For a duty fraction in [0, 1], `value` is the truncated product and lies in [0, range] (R281). -/
theorem onTicks_spec {x : Real64} {r : U32} (h0 : realLe zero64 x = true) (h1 : realLe x one64 = true) :
    (onTicks x r).toNat ≤ r.toNat ∧ ((onTicks x r).toNat : Int) = trunc (realRat x * r.toNat) := by
  have f0 : realFinite zero64 = true := by decide
  have f1 : realFinite one64 = true := by decide
  have fx := realFinite_of_between f0 f1 h0 h1
  rw [realLe_iff f0 fx, realRat_zero64] at h0
  rw [realLe_iff fx f1, realRat_one64] at h1
  have hr : (0 : Rat) ≤ r.toNat := Nat.cast_nonneg _
  have p0 : 0 ≤ realRat x * r.toNat := mul_nonneg h0 hr
  have p1 : realRat x * r.toNat ≤ r.toNat := mul_le_of_le_one_left hr h1
  unfold onTicks trunc
  rw [if_neg (not_lt.2 p0)]
  generalize realRat x * r.toNat = q at *
  have q0 : 0 ≤ q.floor := Rat.le_floor_iff.2 (by simpa using p0)
  have q1 : q.floor ≤ r.toNat := by
    have : (q.floor : Rat) ≤ r.toNat := le_trans (Rat.floor_le q) p1
    exact_mod_cast this
  have : r.toNat < 2 ^ 32 := r.isLt
  rw [BitVec.toNat_ofInt, Int.emod_eq_of_lt q0 (by omega)]
  omega

/-- What `pwmset` clamps to (R281). -/
theorem clamp01_spec {x : Real64} (h : realNaN x = false) :
    realLe zero64 (clamp x zero64 one64) = true ∧ realLe (clamp x zero64 one64) one64 = true := by
  have k := realKey_clamp h (lo := zero64) (hi := one64) (by decide) (by decide)
  have n := realNaN_clamp h (lo := zero64) (hi := one64) (by decide) (by decide)
  have k0 : realKey zero64 = 0 := by decide
  have k1 : realKey one64 = 0x3FF0000000000000 := by decide
  have n0 : realNaN zero64 = false := by decide
  have n1 : realNaN one64 = false := by decide
  simp only [realLe, n, n0, n1, k, k0, k1]
  simp

/-- What `pwmset` makes of a number: a duty fraction in [0, 1] of the format (R281, R38). -/
theorem pwmFrac_spec {f : RealFmt} (hf : f.legal = true) {x : Real64} (h : realNaN x = false) :
    realLe zero64 (toFormat f (clamp x zero64 one64)) = true ∧ realLe (toFormat f (clamp x zero64 one64)) one64 = true :=
  have c := clamp01_spec h
  toFormat_unit hf c.1 c.2

/-- A fraction that is a value of the format already is stored as it is clamped (R431). -/
theorem pwmFrac_of_inFormat {f : RealFmt} (hf : f.legal = true) {x : Real64} (h : inFormat f x = true) :
    toFormat f (clamp x zero64 one64) = clamp x zero64 one64 := by
  simpa [inFormat] using inFormat_clamp h (inFormat_zero64 f) (inFormat_one64 hf)

/-! ### The range finder -/

theorem realNaN_someNumber (f : RealFmt) (x : Real64) : realNaN (someNumber f x) = false := by
  unfold someNumber; split
  · decide
  · rename_i h; simpa [realNaN_toFormat] using h

theorem inFormat_someNumber {f : RealFmt} (hf : f.legal = true) (x : Real64) : inFormat f (someNumber f x) = true := by
  unfold someNumber; split
  · exact inFormat_zero64 f
  · exact inFormat_toFormat hf x

/-- What a REAL field stores is never a NaN (R50). -/
theorem State.realNaN_storedReal (s : State) (x : Num) : realNaN (s.storedReal x).1 = false := by
  unfold State.storedReal; split
  · exact realNaN_someNumber _ _
  · rename_i h; simpa [realNaN_round] using h

/-- What a REAL field stores is a value of `REAL_FMT` (R50). -/
theorem State.inFormat_storedReal {s : State} (h : s.cfg.realFmt.legal = true) (x : Num) :
    inFormat s.cfg.realFmt (s.storedReal x).1 = true := by
  unfold State.storedReal; split
  · exact inFormat_someNumber h _
  · exact inFormat_round h _

/-- At a finite speed a distance is a number (R342, R50). -/
theorem realNaN_distance (f : RealFmt) {speed : Real64} (h : realFinite speed = true) (d : U32) :
    realNaN (distance f speed d) = false := by
  unfold distance
  rw [realNaN_round]
  rcases realNum_finite h with e | e <;> rw [e] <;> simp only [ofInt, Num.mul] <;> split_ifs <;>
    simp <;> split_ifs <;> simp

/-- The sampler leaves a number in `filtered` (R345, R50). -/
theorem State.realNaN_samplerResult {s : State} {r : Real64} (hr : realNaN r = false)
    (hf : realNaN s.range.filtered = false) : realNaN (s.samplerResult r).range.filtered = false := by
  unfold State.samplerResult
  split
  · simpa [State.nextSample] using hr
  · split
    · exact hf
    · exact s.realNaN_storedReal _

/-! ### The temperature decoder -/

/-- The first packet of a 20-bit frame is `w[18:10]` (R153, R314). -/
theorem packet0_packets {c : Config} (h : c.tempFrameBits = 20) (w : U32) :
    packet0 (packets c w) = w.extractLsb' 10 9 := by
  apply BitVec.eq_of_getLsbD_eq
  intro i hi
  rw [packets, if_pos h, packet0, BitVec.getLsbD_extractLsb', BitVec.getLsbD_append]
  simp [hi]

/-- The second packet of a 20-bit frame is `w[8:0]` (R153, R314). -/
theorem packet1_packets {c : Config} (h : c.tempFrameBits = 20) (w : U32) :
    packet1 (packets c w) = w.extractLsb' 0 9 := by
  apply BitVec.eq_of_getLsbD_eq
  intro i hi
  rw [packets, if_pos h, packet1, BitVec.getLsbD_extractLsb', BitVec.getLsbD_append]
  simp [hi]

end Sys2Proof.Machine
end

