-- ==== Sys2Proof/Tests/Slice0.lean ====
section
/-! SUPPORT. Tests of the model. The frames and the expected results are written out by hand from spec/30_encoding.md and
the vectors of spec/95_test_vectors.md (V-…), never from the model's own answers. The witnesses at the end show, for each
statement with hypotheses, a concrete state and operands that meet them. -/

namespace Sys2Proof.Tests

open Sys2Proof Sys2Proof.Machine

-- One theorem at a time: each evaluates in the kernel, and threads for all of them at once do not fit the sandbox's memory.
set_option Elab.async false

/-! ### Helpers: one step at a time -/

/-- The state a step answers, or the state it started from where it stops. -/
def settle (r : Result) (s : State) : State :=
  match r with
  | .next t => t
  | .fault _ => s
  | .refused _ => s

/-- The state after one step that takes the given frame on its port. -/
def take1 (s : State) (f : Frame) : State := settle (step (s.present f)) s

/-- Whether a step answers a next state. -/
def isNext (r : Result) : Bool :=
  match r with
  | .next _ => true
  | .fault _ => false
  | .refused _ => false

theorem step_take1 {s : State} {f : Frame} (h : isNext (step (s.present f)) = true) :
    step (s.present f) = .next (take1 s f) := by
  unfold take1
  cases hs : step (s.present f) with
  | next t => rfl
  | fault x => rw [hs] at h; exact absurd h (by simp [isNext])
  | refused x => rw [hs] at h; exact absurd h (by simp [isNext])

/-- The state after one step that fires a timed action. -/
def fire1 (s : State) (a : Action) : State := settle (step { s with outside := { s.outside with picks := [.timed a] } }) s

/-- The reason a step refuses, if it does. -/
def refusal (r : Result) : Option Refusal :=
  match r with
  | .next _ => none
  | .fault _ => none
  | .refused x => some x

/-- The bytes of the last response. -/
def wire (s : State) : Option Frame := s.responses.getLast?.map Response.frame

/-- The reset state at another time. -/
def resetAt (t : Nat) : State := { State.reset with now := t }

/-- Pin 3 an output, as `00 03 01` leaves it. -/
def pin3Out : State := take1 State.reset [0x00, 3, 1]

/-- Pin 4 with the given edge mode. -/
def pin4Mode (m : Byte) : State := take1 State.reset [0x04, 4, m]

/-- The reset state with the regulator RUNNING, its tick due, and the gains, target, power and sample of V-E3. -/
def heating (gain : Real64) (temp : Real64) (valid power : Bool) : State :=
  { State.reset with
    pid := { State.reset.pid with pGain := gain }
    temp := { State.reset.temp with sample := { value := temp, valid := valid, ts := 0 } }
    reg := { State.reset.reg with state := .running, target := 0x4057000000000000, power := power }
    timers := { State.reset.timers with regTick := some 0 } }

/-- CFG-V with the ladder of the LADDER vectors. -/
def ladderConfig : Config :=
  { Config.vector with
    btnMode := .ladder
    nbtn := 2
    ladderTable := [0x4008000000000000, 0x4000000000000000, 0x3FF8000000000000, 0x3FF0000000000000] }

/-- The reset state of that configuration. -/
def ladderReset : State := State.resetWith ladderConfig true (some (0, 0))

/-- CFG-V in POLL mode (as CFG-P). -/
def pollReset : State := State.resetWith { Config.vector with rangeMode := .poll } true (some (0, 0))

/-- IEEE 754 binary32. -/
def binary32 : RealFmt := { precision := 24, maxExponent := 127 }

/-- CFG-V with the `REAL_FMT` binary32, R9's numbers as binary64 patterns. -/
def vector32 : Config := { Config.vector with realFmt := binary32 }

/-- The reset state of that configuration. -/
def reset32 : State := State.resetWith vector32 true (some (0, 0))

/-! ### Decoding: frames written from R141, R146 and R149 -/

theorem test_decode_gpio :
    decode [0x00, 3, 1] = .ok (.gpioSetdir 3 1) ∧ decode [0x01, 3, 1] = .ok (.gpioWrite 3 1) ∧
    decode [0x02, 3] = .ok (.gpioRead 3) ∧ decode [0x03, 0x11, 0x01, 0, 0, 0, 0x0A] = .ok (.gpioPulse 17 1 10) ∧
    decode [0x04, 4, 3] = .ok (.gpioSetedge 4 3) ∧ decode [0x05, 4, 0, 0, 0x03, 0xE8] = .ok (.gpioWaitedge 4 1000) ∧
    decode [0x06, 0x1B] = .ok (.gpioSubscribe 27) ∧ decode [0x07, 4] = .ok (.gpioUnsubscribe 4) := by decide

theorem test_decode_clock_adc :
    decode [0x10] = .ok .clkNow ∧ decode [0x11] = .ok .swStart ∧ decode [0x12] = .ok .swStop ∧
    decode [0x13] = .ok .swElapsed ∧ decode [0x20] = .ok .adcOpen ∧ decode [0x21, 2] = .ok (.adcGetvoltage 2) := by decide

theorem test_decode_pwm :
    decode [0x30, 0x3F, 0xE0, 0, 0, 0, 0, 0, 0] = .ok (.pwmSetvalue 0x3FE0000000000000) ∧
    decode [0x31, 0, 0, 0x07, 0xD0] = .ok (.pwmSetrange 2000) ∧ decode [0x32, 0, 0, 0, 0x10] = .ok (.pwmSetdivisor 16) ∧
    decode [0x33] = .ok .pwmEnable ∧ decode [0x34] = .ok .pwmDisable ∧ decode [0x35] = .ok .pwmGet := by decide

theorem test_decode_sensors :
    decode [0x40] = .ok .tempGet ∧ decode [0x41] = .ok .tempDiag ∧ decode [0x50] = .ok .rangeMeasure ∧
    decode [0x51] = .ok .rangeGet ∧ decode [0x52] = .ok .rangeReady ∧
    decode [0x53, 0x40, 0x75, 0x70, 0, 0, 0, 0, 0] = .ok (.rangeSetspeed 0x4075700000000000) ∧
    decode [0x60] = .ok .flowGetcount ∧ decode [0x61] = .ok .flowGetlitres ∧
    decode [0x62, 0x3F, 0xF0, 0, 0, 0, 0, 0, 0] = .ok (.flowNotifyafter 0x3FF0000000000000) ∧
    decode [0x63] = .ok .flowStatus ∧ decode [0x70, 1] = .ok (.btnGet 1) ∧ decode [0x71] = .ok .btnGetmask ∧
    decode [0x72] = .ok .pressGetbar := by decide

theorem test_decode_pid :
    decode [0x80, 0x3F, 0xD0, 0, 0, 0, 0, 0, 0, 0, 0, 0, 0, 0, 0, 0, 0, 0x40, 0, 0, 0, 0, 0, 0, 0] =
      .ok (.pidSetgains 0x3FD0000000000000 0 0x4000000000000000) ∧
    decode [0x81, 0xC0, 0x14, 0, 0, 0, 0, 0, 0, 0x40, 0x14, 0, 0, 0, 0, 0, 0] =
      .ok (.pidSetlimits 0xC014000000000000 0x4014000000000000) ∧
    decode [0x82, 0x40, 0x08, 0, 0, 0, 0, 0, 0, 0x01, 0x02, 0x03, 0x04, 0x05, 0x06, 0x07, 0x08] =
      .ok (.pidUpdate 0x4008000000000000 0x0102030405060708) ∧
    decode [0x83] = .ok .pidRead := by decide

theorem test_decode_regulator :
    decode [0x90] = .ok .regStart ∧ decode [0x91] = .ok .regStop ∧
    decode [0x92, 0x40, 0x57, 0, 0, 0, 0, 0, 0] = .ok (.regSettarget 0x4057000000000000) ∧
    decode [0x93, 0x3F, 0xE0, 0, 0, 0, 0, 0, 0] = .ok (.regSettimestep 0x3FE0000000000000) ∧
    decode [0x94, 1] = .ok (.regSetpower 1) ∧ decode [0x95] = .ok .regRead ∧ decode [0x96] = .ok .regStatus := by decide

theorem test_decode_notify_env :
    decode [0xA0] = .ok .ntfPop ∧ decode [0xA1, 4] = .ok (.ntfEnable 4) ∧ decode [0xA2] = .ok .ntfStatus ∧
    decode [0xF0, 17, 1] = .ok (.envPin 17 1) ∧ decode [0xF1, 0, 0, 0, 0, 0, 0, 0x03, 0xE8] = .ok (.envTime 1000) := by
  decide

/-- Reserved opcodes, unit 0xF on the host port, a host opcode on the environment port and broken lengths (R144, R147). -/
theorem test_decode_refuses :
    decodeOn .host [0xB0] = .error (.unlisted 0xB0) ∧ decodeOn .host [0x08] = .error (.unlisted 0x08) ∧
    decodeOn .host [0xF1, 0, 0, 0, 0, 0, 0, 0, 0x64] = .error (.unlisted 0xF1) ∧
    decodeOn .environment [0xF2, 0] = .error (.unlisted 0xF2) ∧ decodeOn .environment [0x10] = .error (.unlisted 0x10) ∧
    decodeOn .host [0x94] = .error (.length 0x94) ∧ decodeOn .host [] = .error .empty := by decide

/-- The table's numbering: GPIO.PULSE 17, 1, 10 as one number, its opcode byte lowest. -/
theorem test_table_word :
    decodeTableWord 56 0x0A000000011103 = some (.gpioPulse 17 1 10) ∧ decodeTableWord 8 0x80 = some (.pidSetgains 0 0 0) ∧
    decodeTableWord 8 0xB0 = none := by decide

/-! ### WellFormed: an ill-formed term for each check -/

theorem test_illFormed_operands :
    (Instr.gpioSetdir 3 2).wellFormed = false ∧ (Instr.gpioWrite 3 2).wellFormed = false ∧
    (Instr.gpioPulse 3 2 10).wellFormed = false ∧ (Instr.gpioPulse 3 1 0).wellFormed = false ∧
    (Instr.gpioSetedge 4 4).wellFormed = false ∧ (Instr.adcGetvoltage 4).wellFormed = false ∧
    (Instr.pwmSetrange 0).wellFormed = false ∧ (Instr.pwmSetdivisor 0).wellFormed = false ∧
    (Instr.regSetpower 2).wellFormed = false ∧ (Instr.ntfEnable 8).wellFormed = false ∧
    (Instr.envPin 5 2).wellFormed = false := by decide +kernel

theorem test_illFormed_reals :
    (Instr.pwmSetvalue 0x7FF8000000000000).wellFormed = false ∧ (Instr.rangeSetspeed 0x8000000000000000).wellFormed = false ∧
    (Instr.rangeSetspeed 0x7FF0000000000000).wellFormed = false ∧
    (Instr.flowNotifyafter 0xBFF0000000000000).wellFormed = false ∧
    (Instr.flowNotifyafter 0x7FF8000000000000).wellFormed = false ∧
    (Instr.pidSetgains 0 0 0xFFF0000000000000).wellFormed = false ∧
    (Instr.pidSetlimits 0x7FF0000000000000 0).wellFormed = false ∧ (Instr.pidUpdate 0 0x7FF0000000000001).wellFormed = false ∧
    (Instr.regSettarget 0xFFF8000000000000).wellFormed = false ∧ (Instr.regSettimestep 0).wellFormed = false ∧
    (Instr.regSettimestep 0x7FF0000000000000).wellFormed = false := by decide +kernel

/-- One ill-formed configuration for each clause (R10), and the two well-formed ones. -/
theorem test_illFormed_configs :
    Config.vector.wellFormed = true ∧ ladderConfig.wellFormed = true ∧
    ({ Config.vector with pinEcho := 17 }).pinsDistinct = false ∧ ({ Config.vector with pinEcho := 28 }).pinsDistinct = false ∧
    ({ Config.vector with pinInit := [] }).pinsComplete = false ∧ ({ Config.vector with nbtn := 2 }).pinsComplete = false ∧
    ({ Config.vector with pwmDiv0 := 4096 }).pwmInRange = false ∧ ({ Config.vector with pwmRange0 := 0 }).pwmInRange = false ∧
    ({ Config.vector with speed0 := 0x8000000000000000 }).timesPositive = false ∧
    ({ Config.vector with adcPollUs := 0 }).timesPositive = false ∧
    ({ Config.vector with maxTemp := 0xC049000000000000 }).tempOrdered = false ∧
    ({ ladderConfig with ladderTable := [0x4008000000000000] }).ladderOk = false ∧
    ({ ladderConfig with nbtn := 1 }).ladderOk = false ∧
    ({ ladderConfig with ladderTable := [0, 0x8000000000000000] }).ladderOk = false ∧
    ({ ladderConfig with ladderTable := [] }).ladderOk = false ∧
    ({ Config.vector with ladderTable := [one64] }).ladderOk = false ∧
    ({ Config.vector with ladderTable := [one64, one64] }).ladderOk = false ∧
    ({ Config.vector with ladderTable := [0, one64, 0x4000000000000000] }).ladderOk = false ∧
    ({ Config.vector with ladderTable := [0, one64] }).ladderOk = true ∧
    ({ Config.vector with gateM := 0x7FF0000000000000 }).realsFinite = false ∧
    ({ Config.vector with nbtn := 33 }).sizesOk = false ∧ ({ Config.vector with regTimestep0 := 0 }).sizesOk = false ∧
    ({ Config.vector with realFmt := { precision := 54, maxExponent := 1023 } }).formatsOk = false ∧
    ({ Config.vector with realFmt := { precision := 53, maxExponent := 1024 } }).formatsOk = false ∧
    ({ Config.vector with realFmt := { precision := 1, maxExponent := 127 } }).formatsOk = false ∧
    ({ Config.vector with realFmt := { precision := 24, maxExponent := 1 } }).formatsOk = false ∧
    vector32.realsInFormat = false ∧ vector32.formatsOk = true ∧
    ({ Config.vector with tsWidth := 33 }).formatsOk = false ∧ ({ Config.vector with tsWidth := 0 }).formatsOk = false ∧
    ({ Config.vector with tempFrameBits := 17 }).formatsOk = false ∧
    ({ Config.vector with tempFrameBits := 33 }).formatsOk = false := by
  decide +kernel

/-- R13 and R50 under the `REAL_FMT` binary32: 340.27 is 11149967 / 2^15 and 0.01 is 10737418 / 2^30 (by hand); reset holds
them so, and the machine runs. -/
theorem test_reset_binary32 :
    realRat reset32.range.speed = 11149967 / 2 ^ 15 ∧ realRat reset32.cfg.gateM = 10737418 / 2 ^ 30 ∧
    reset32.cfg.wellFormed = true ∧ wire (take1 reset32 [0x51]) = some [0, 0, 0, 0, 0, 0, 0, 0, 0, 0, 0, 0, 0, 0] := by
  decide +kernel

/-- Rounding to binary32: 1/3 and 0.1, whose binary32 patterns are 3EAAAAAB and 3DCCCCCD, the tie 1 + 2^-24, the midpoint
above the largest value, and the least subnormal 2^-149 and the tie below it. -/
theorem test_round_binary32 :
    roundRat binary32 (1 / 3) = 0x3FD5555560000000 ∧ roundRat binary32 (1 / 10) = 0x3FB99999A0000000 ∧
    roundRat binary32 (1 + 1 / 2 ^ 24) = one64 ∧ roundRat binary32 (2 ^ 128 - 2 ^ 103) = 0x7FF0000000000000 ∧
    roundRat binary32 (2 ^ 128 - 2 ^ 103 - 1) = 0x47EFFFFFE0000000 ∧ roundRat binary32 (1 / 2 ^ 149) = 0x36A0000000000000 ∧
    roundRat binary32 (1 / 2 ^ 150) = 0 ∧ roundRat binary32 (-3 / 2 ^ 150) = 0xB6B0000000000000 := by decide +kernel

/-- Under binary32 an operand is checked and used as it is given, and stored rounded (R13, R142): 0.1 is stored as
13421773 / 2^27 (by hand), 1e-50 as a speed is stored as 0.0, -1e-50 litres are BADARG, 1e39 as a duty gives value = range
(R282), and litres just below 1.5 / 4095, which binary32 would round above it, count one edge (R374). -/
theorem test_operand_binary32 :
    realRat (take1 reset32 [0x92, 0x3F, 0xB9, 0x99, 0x99, 0x99, 0x99, 0x99, 0x9A]).reg.target = 13421773 / 2 ^ 27 ∧
    (take1 reset32 [0x53, 0x35, 0x8D, 0xEE, 0x7A, 0x4A, 0xD4, 0xB8, 0x1F]).range.speed = 0 ∧
    wire (take1 reset32 [0x62, 0xB5, 0x8D, 0xEE, 0x7A, 0x4A, 0xD4, 0xB8, 0x1F]) = some [2] ∧
    (take1 reset32 [0x30, 0x48, 0x07, 0x82, 0x87, 0xF4, 0x9C, 0x4A, 0x1D]).pwm =
      { State.reset.pwm with value := 1024, frac := one64 } ∧
    (take1 reset32 [0x62, 0x3F, 0x38, 0x01, 0x80, 0x18, 0x01, 0x80, 0x18]).flow.target = 1 ∧
    3 / 2 < realRat (toFormat binary32 0x3F38018018018018) * 4095 ∧ realRat 0x3F38018018018018 * 4095 < 3 / 2 := by decide +kernel

/-- A target of 1e39, beyond binary32, is accepted and stored as some finite REAL (R605, log entry 27). -/
theorem test_operand_beyond_binary32 :
    wire (take1 reset32 [0x92, 0x48, 0x07, 0x82, 0x87, 0xF4, 0x9C, 0x4A, 0x1D]) = some [0] ∧
    realFinite (reset32.toReal 0x48078287F49C4A1D) = true :=
  ⟨by decide +kernel, (reset32.stores_toReal _).1⟩

theorem test_refuses_illFormed_config :
    refusal (step { State.reset with cfg := { Config.vector with pinEcho := 17 } }) = some .illFormedConfig := by decide +kernel

theorem test_refuses_broken_frame : refusal (step (State.reset.present [0x94])) = some .brokenFrame := by decide +kernel

/-! ### Status and encoding vectors (V-X) -/

/-- V-X1, V-X4, V-X5, V-X8, V-X9, V-X10, V-X11. -/
theorem test_statuses :
    wire (take1 State.reset [0xB0]) = some [1] ∧ wire (take1 State.reset [0x94, 2]) = some [2] ∧
    wire (take1 State.reset [0x30, 0x7F, 0xF8, 0, 0, 0, 0, 0, 0]) = some [2] ∧
    wire (take1 State.reset [0x03, 0x11, 1, 0, 0, 0, 0]) = some [2] ∧
    wire (take1 State.reset [0x03, 0x11, 1, 0, 0, 0, 0x0A]) = some [3] ∧
    wire (take1 State.reset [0x00, 0x1C, 1]) = some [2] ∧
    wire (take1 State.reset [0x82, 0x40, 0x10, 0, 0, 0, 0, 0, 0, 0x7F, 0xF0, 0, 0, 0, 0, 0, 0]) =
      some [2, 0, 0, 0, 0, 0, 0, 0, 0] := by decide +kernel

/-! ### GPIO and the edge detector (V-G) -/

/-- V-G24: switching to IN takes the level the environment presents, without an event. -/
theorem test_setdir_draws :
    ((take1 { State.reset with outside := { State.reset.outside with levels := [true] } } [0x00, 5, 0]).pin 5).inLevel = true ∧
    (pin3Out.pin 3).dir = .output := by decide +kernel

/-- V-G6, V-G7. -/
theorem test_write_read :
    wire (take1 (take1 pin3Out [0x01, 3, 1]) [0x02, 3]) = some [0, 1] ∧
    wire (take1 (take1 State.reset [0x01, 3, 1]) [0x02, 3]) = some [0, 0] ∧
    wire (take1 State.reset [0x01, 0x12, 1]) = some [3] := by decide +kernel

/-- V-P9, V-P10. -/
theorem test_read_pwm :
    wire (take1 (take1 State.reset [0x34]) [0x02, 18]) = some [0, 0] ∧
    wire (take1 (take1 State.reset [0x30, 0x3F, 0xF0, 0, 0, 0, 0, 0, 0]) [0x02, 18]) = some [0, 1] := by decide +kernel

/-- V-G11: the pulse at 100, then its end at 110. -/
theorem test_pulse :
    let held := take1 { pin3Out with now := 100 } [0x03, 3, 1, 0, 0, 0, 0x0A]
    (held.pin 3).outLevel = true ∧ held.timers.hostDeadline = some 110 ∧
    ((fire1 { held with now := 110 } .hostDeadline).pin 3).outLevel = false ∧
    wire (fire1 { held with now := 110 } .hostDeadline) = some [0] := by decide +kernel

/-- V-G13, V-G14. -/
theorem test_pulse_refuses :
    wire (take1 State.reset [0x03, 3, 1, 0, 0, 0, 0x0A]) = some [2] ∧
    wire (take1 State.reset [0x03, 3, 1, 0, 0x0F, 0x42, 0x41]) = some [2] := by decide +kernel

/-- V-G9, V-G10, V-G3: a falling edge does not match RISING but updates the level. -/
theorem test_setedge :
    wire (take1 State.reset [0x04, 4, 4]) = some [2] ∧ wire (take1 State.reset [0x04, 0x11, 3]) = some [3] ∧
    ((take1 (take1 (pin4Mode 1) [0xF0, 4, 1]) [0xF0, 4, 0]).pin 4).inLevel = false := by decide +kernel

/-- V-G15, V-G16. -/
theorem test_waitedge :
    let held := take1 (pin4Mode 1) [0x05, 4, 0, 0, 0x03, 0xE8]
    wire (take1 { held with now := 250 } [0xF0, 4, 1]) = some [0, 1, 0, 0, 0, 0xFA] ∧
    wire (fire1 { held with now := 1000 } .hostDeadline) = some [4, 0, 0, 0, 0, 0] := by decide +kernel

/-- V-G20, V-G22: subscribed edges are queued, and stay queued after the subscription ends. -/
theorem test_subscribe :
    let on := take1 (take1 (pin4Mode 3) [0x06, 4]) [0xA1, 4]
    let edges := take1 { take1 { on with now := 800 } [0xF0, 4, 1] with now := 900 } [0xF0, 4, 0]
    edges.ntf.queue = [{ kind := .edge, a := 4, b := 1, c := 800 }, { kind := .edge, a := 4, b := 0, c := 900 }] ∧
    edges.irq = true ∧ (take1 (take1 edges [0x07, 4]) [0xF0, 4, 1]).ntf.queue = edges.ntf.queue ∧
    wire (take1 State.reset [0x06, 0x1B]) = some [0] := by decide +kernel

/-- V-G1, V-G2, V-G4, V-G5. -/
theorem test_env_pin :
    ((take1 { take1 State.reset [0x04, 5, 3] with now := 70000 } [0xF0, 5, 1]).pin 5).inLevel = true ∧
    ((take1 pin3Out [0xF0, 3, 1]).pin 3).inLevel = false ∧
    (take1 State.reset [0xF0, 28, 1]).pins = State.reset.pins ∧
    (take1 State.reset [0xF0, 5, 2]).pins = State.reset.pins := by decide +kernel

/-- V-G19: the owner's handler runs before the waiting command. -/
theorem test_dispatch_order :
    let t := take1 { take1 State.reset [0x05, 0x11, 0, 0, 0x03, 0xE8] with now := 40 } [0xF0, 17, 1]
    wire t = some [0, 1, 0, 0, 0, 0x28] ∧ t.temp.lastRise = some 40 := by decide +kernel

/-! ### Clock (V-C, V-Z) -/

/-- V-C1, V-C2, and 65 541 in 16 bits. -/
theorem test_now : wire (take1 (resetAt 4294967301) [0x10]) = some [0, 0, 0, 0, 5] ∧
    wire (take1 State.reset [0x13]) = some [0, 0, 0, 0, 0] ∧
    wire (take1 { resetAt 65541 with cfg := { Config.vector with tsWidth := 16 } } [0x10]) = some [0, 0, 0, 0, 5] := by
  decide +kernel

/-- V-C3, V-C4, V-C5. -/
theorem test_stopwatch :
    let started := take1 (resetAt 1000) [0x11]
    let stopped := take1 { started with now := 1600 } [0x12]
    wire (take1 { stopped with now := 5000 } [0x13]) = some [0, 0, 0, 2, 0x58] ∧
    wire (take1 (take1 { stopped with now := 7000 } [0x12]) [0x13]) = some [0, 0, 0, 2, 0x58] ∧
    wire (take1 { take1 { started with now := 3000 } [0x11] with now := 3500 } [0x13]) = some [0, 0, 0, 1, 0xF4] := by
  decide +kernel

/-- V-Z1 (with the button poll at 20 000), V-Z2, V-Z3. -/
theorem test_env_time :
    (take1 pollReset [0xF1, 0, 0, 0, 0, 0, 0, 0x4E, 0x20]).now = 20000 ∧
    (take1 pollReset [0xF1, 0, 0, 0, 0, 0, 0, 0x4E, 0x21]).now = 0 ∧
    (take1 pollReset [0xF1, 0, 0, 0, 0, 0, 0, 0, 0]).now = 0 ∧
    (take1 State.reset [0xF1, 0, 0, 0, 0, 0, 0, 0, 1]).now = 0 := by decide +kernel

/-! ### ADC (V-A, V-Q) -/

/-- V-A2: the bus traffic and the reply of a conversion of channel 2 whose first poll finds it busy. -/
theorem test_getvoltage :
    let s : State := { resetAt 1000 with
      bus := []
      outside := { State.reset.outside with
        acks := [true, true, true, true], reads := [some (0x63, 0x83), some (0xE3, 0x83), some (0x40, 0x00)] } }
    let t := fire1 { fire1 { take1 s [0x21, 2] with now := 2000 } .adcPoll with now := 3000 } .adcPoll
    wire t = some [0, 0x40, 0x00, 0x62, 0x4D, 0xD2, 0xF1, 0xA9, 0xFC] ∧ t.port = .idle ∧
    t.bus = [.write 0x48 [0x01, 0xE3, 0x83] true, .write 0x48 [0x01] true, .read 0x48 2 (some (0x63, 0x83)),
      .write 0x48 [0x01] true, .read 0x48 2 (some (0xE3, 0x83)), .write 0x48 [0x00] true, .read 0x48 2 (some (0x40, 0x00))] := by
  decide +kernel

/-- V-A4 (its last poll), V-A5, V-A6. -/
theorem test_getvoltage_fails :
    let nack : State := { State.reset with outside := { State.reset.outside with acks := [false] } }
    let busy : State := { resetAt 100000 with
      port := .held { op := .getVoltage 2, tAcc := 0, tDl := none }
      adc := { State.reset.adc with phase := .converting 2 .host 0 }
      timers := { State.reset.timers with adcPoll := some 100000 }
      outside := { State.reset.outside with acks := [true], reads := [some (0x63, 0x83)] } }
    wire (fire1 busy .adcPoll) = some [6, 0, 0, 0, 0, 0, 0, 0, 0] ∧
    wire (take1 nack [0x21, 2]) = some [6, 0, 0, 0, 0, 0, 0, 0, 0] ∧ (take1 nack [0x21, 2]).timers.adcPoll = none ∧
    wire (take1 State.reset [0x21, 4]) = some [2, 0, 0, 0, 0, 0, 0, 0, 0] := by decide +kernel

/-- V-A7, V-A8, V-A9. -/
theorem test_open :
    let absent := State.resetWith Config.vector false none
    wire (take1 absent [0x21, 0]) = some [5, 0, 0, 0, 0, 0, 0, 0, 0] ∧
    (take1 { absent with outside := { absent.outside with acks := [true], reads := [some (0, 7)] } } [0x20]).adc.presence =
      .present ∧
    wire (take1 { State.reset with outside := { State.reset.outside with acks := [false] } } [0x20]) = some [5] := by
  decide +kernel

/-- V-A1, V-A3. -/
theorem test_adc_words :
    (List.range 4).map (fun ch => adcConfigWord Config.vector (BitVec.ofNat 2 ch)) = [0xC383, 0xD383, 0xE383, 0xF383] ∧
    [0x8000, 0x7FFF, 0xFFFF, 0x0001, 0x0000].map (volts Config.vector) =
      [0xC010624DD2F1A9FC, 0x4010622D0E560419, 0xBF20624DD2F1A9FC, 0x3F20624DD2F1A9FC, 0] := by decide +kernel

/-- V-Q1 as far as `BAR_OF_VOLTS`, which is free: the pressure input asks for channel 1, behind no other request. -/
theorem test_getbar :
    let t := take1 { State.reset with outside := { State.reset.outside with acks := [true] } } [0x72]
    t.adc.phase = .converting 1 .press 0 ∧ t.timers.adcPoll = some 1000 ∧ volts Config.vector 0x1F40 = one64 := by
  decide +kernel

/-! ### PWM (V-P, V-X7) -/

/-- V-P2, V-P3, V-P4, V-X7. -/
theorem test_setvalue :
    (take1 State.reset [0x30, 0x3F, 0xE0, 0, 0, 0, 0, 0, 0]).pwm.value = 512 ∧
    (take1 State.reset [0x30, 0x3F, 0xD3, 0x33, 0x33, 0x33, 0x33, 0x33, 0x33]).pwm.value = 307 ∧
    (take1 State.reset [0x30, 0x3F, 0xF8, 0, 0, 0, 0, 0, 0]).pwm.value = 1024 ∧
    (take1 State.reset [0x30, 0xBF, 0xC9, 0x99, 0x99, 0x99, 0x99, 0x99, 0x9A]).pwm.value = 0 ∧
    (take1 State.reset [0x30, 0x80, 0, 0, 0, 0, 0, 0, 0]).pwm.frac = 0 := by decide +kernel

/-- V-P12. -/
theorem test_setvalue_busy :
    wire (take1 (heating 0 0 false false) [0x30, 0x3F, 0xE0, 0, 0, 0, 0, 0, 0]) = some [3] := by decide +kernel

/-- V-P5, V-P6, V-P8. -/
theorem test_setrange_divisor :
    (take1 (take1 State.reset [0x30, 0x3F, 0xE0, 0, 0, 0, 0, 0, 0]) [0x31, 0, 0, 0x07, 0xD0]).pwm.value = 1000 ∧
    wire (take1 State.reset [0x31, 0, 0, 0, 0]) = some [2] ∧ wire (take1 State.reset [0x32, 0, 0, 0x10, 0]) = some [2] ∧
    wire (take1 State.reset [0x32, 0, 0, 0x0F, 0xFF]) = some [0] := by decide +kernel

/-- V-P1, V-P7, and R285. -/
theorem test_pwm_get :
    wire (take1 State.reset [0x35]) = some [0, 0, 0, 0, 0x10, 0, 0, 0x04, 0, 0, 0, 0, 0, 1] ∧
    State.reset.pwmFrequency = 1171875 / 1000 ∧ State.reset.pwmDuty = 0 ∧ (take1 (take1 State.reset [0x34]) [0x33]).pwm.enabled = true := by
  decide +kernel

/-! ### Temperature decoder (V-T) -/

/-- V-T1. -/
theorem test_classify :
    [0, 62, 63, 124, 125, 1000].map (classify 125) = [.bit1, .bit1, .bit0, .bit0, .sync, .sync] := by decide

/-- V-T2, V-T3, V-T4, V-T5 as whole frame words. -/
theorem test_frames :
    (State.reset.temp.decodeFrame Config.vector 0x81600 9).sample = { value := 0x3F990320640C8190, valid := true, ts := 9 } ∧
    (State.reset.temp.decodeFrame Config.vector 0x82BFE 9).sample = { value := 0x4058FE6FCDF9BF38, valid := true, ts := 9 } ∧
    (State.reset.temp.decodeFrame Config.vector 0x82BFF 9).parityErr = 1 ∧
    (State.reset.temp.decodeFrame Config.vector 0x84600 9).prefixErr = 1 ∧
    (State.reset.temp.decodeFrame Config.vector 0x84600 9).parityErr = 0 := by decide +kernel

/-- V-T3 with its twenty pulses, "1" bits of 30 µs and "0" bits of 90 µs, and V-T6. -/
theorem test_pulses :
    let pulse (t : Temp) (d : U32) : Temp := (t.rise 1000).fall Config.vector (1000 + d)
    ([30, 90, 90, 90, 90, 90, 30, 90, 30, 90, 30, 30, 30, 30, 30, 30, 30, 30, 30, 90].foldl pulse State.reset.temp).sample =
      { value := 0x4058FE6FCDF9BF38, valid := true, ts := 1090 } ∧
    ([200, 30, 30, 90, 90, 30, 200].foldl pulse State.reset.temp).syncErr = 1 ∧
    ([200, 30, 30, 90, 90, 30, 200].foldl pulse State.reset.temp).bitCount = 0 := by decide +kernel

/-- V-T8, V-T9. -/
theorem test_fall :
    (State.reset.temp.fall Config.vector 5).bitCount = 0 ∧
    ((State.reset.temp.rise 0xFFFFFFF0).fall Config.vector 0x0000000E).word = 1 := by decide +kernel

/-- A frame of 24 bits is decoded at its 24th bit, not at its 20th. -/
theorem test_frame_bits :
    let c : Config := { Config.vector with tempFrameBits := 24 }
    let t := (List.replicate 23 (30 : U32)).foldl (fun t d => (t.rise 0).fall c d) State.reset.temp
    t.frames = 0 ∧ t.bitCount = 23 ∧ ((t.rise 0).fall c 30).bitCount = 0 := by decide +kernel

/-- V-T10, and TEMP.DIAG after V-T4's frame alone. -/
theorem test_temp_reads :
    wire (take1 State.reset [0x40]) = some [0, 0, 0, 0, 0, 0, 0, 0, 0, 0, 0, 0, 0, 0] ∧
    wire (take1 { State.reset with temp := State.reset.temp.decodeFrame Config.vector 0x82BFF 9 } [0x41]) =
      some [0, 0, 0, 0, 1, 0, 0, 0, 1, 0, 0, 0, 0, 0, 0, 0, 0, 0, 0, 0, 0] := by decide +kernel

/-! ### Range finder (V-R) -/

/-- V-R1, V-R2, V-R3. -/
theorem test_distance :
    let distance := distance .binary64
    distance Config.vector.speed0 1000 = 0x3FC5C6FBD273D5BA ∧ distance Config.vector.speed0 1 = 0x3F264CC8859555BD ∧
    distance Config.vector.speed0 0 = 0 ∧
    distance (take1 State.reset [0x53, 0x40, 0x75, 0x70, 0, 0, 0, 0, 0]).range.speed 1000 = 0x3FC5F3B645A1CAC1 := by
  decide +kernel

/-- V-R4, V-R10. -/
theorem test_range_refuses :
    wire (take1 State.reset [0x53, 0, 0, 0, 0, 0, 0, 0, 0]) = some [2] ∧
    wire (take1 State.reset [0x53, 0xC0, 0x75, 0x70, 0, 0, 0, 0, 0]) = some [2] ∧
    wire (take1 State.reset [0x50]) = some [3, 0, 0, 0, 0, 0, 0, 0, 0] := by decide +kernel

/-- V-R5: a measurement in POLL mode, from its command to its reply. -/
theorem test_measure :
    let trig := fire1 (take1 pollReset [0x50]) .rangeHostTrig
    let wait := fire1 { trig with now := 10 } .rangeTrigEnd
    let t := take1 { take1 { wait with now := 1010 } [0xF0, 24, 1] with now := 2010 } [0xF0, 24, 0]
    (trig.pin 23).outLevel = true ∧ (wait.pin 23).outLevel = false ∧
    wire t = some [0, 0x3F, 0xC5, 0xC6, 0xFB, 0xD2, 0x73, 0xD5, 0xBA] ∧ t.range.count = 1 ∧
    (take1 t [0x50]).timers.rangeHostTrig = some 100000 := by decide +kernel

/-- V-R7, V-R11 and V-R12: a READY held in BACKGROUND mode ends with the sampler's first sample. -/
theorem test_no_echo_and_ready :
    let wait := fire1 { fire1 (take1 pollReset [0x50]) .rangeHostTrig with now := 10 } .rangeTrigEnd
    let back := fire1 { fire1 (take1 State.reset [0x52]) .rangeSample with now := 10 } .rangeTrigEnd
    wire (fire1 { wait with now := 50010 } .rangeEchoTimeout) = some [4, 0, 0, 0, 0, 0, 0, 0, 0] ∧
    wire (fire1 { back with now := 50010 } .rangeEchoTimeout) = some [0] ∧
    (fire1 { back with now := 50010 } .rangeEchoTimeout).timers.rangeSample = some 100000 := by decide +kernel

/-- V-R9, sample steps 2 to 4: smoothed, rejected for a retry, and the retry taken without a gate. -/
theorem test_sampler :
    let s : State := { State.reset with range := { State.reset.range with filtered := 0x3FC5C6FBD273D5BA, valid := true } }
    let second := s.samplerResult (distance .binary64 Config.vector.speed0 1050)
    let third := second.samplerResult (distance .binary64 Config.vector.speed0 1200)
    second.range.filtered = 0x3FC6525BB7B6BB12 ∧ third.range.attempt = .retry ∧ third.range.count = 1 ∧
    (third.samplerResult (distance .binary64 Config.vector.speed0 1210)).range.filtered = 0x3FC8560B54C7D871 := by decide +kernel

/-- R50: two infinite distances leave `filtered` without a value, and it is still a number. -/
theorem test_filtered_number :
    let s : State := { State.reset with range :=
      { State.reset.range with filtered := 0x7FF0000000000000, valid := true, attempt := .retry } }
    s.smoothed 0x7FF0000000000000 = .nan ∧ realNaN (s.samplerResult 0x7FF0000000000000).range.filtered = false :=
  ⟨by decide +kernel, State.realNaN_samplerResult (by decide) (by decide)⟩

/-- V-R13. -/
theorem test_range_get : wire (take1 State.reset [0x51]) = some [0, 0, 0, 0, 0, 0, 0, 0, 0, 0, 0, 0, 0, 0] := by
  decide +kernel

/-! ### Flow counter (V-F) -/

/-- V-F2, V-F3, V-F4, V-F5, V-F6 (the targets), V-F11. -/
theorem test_notifyafter :
    let at100 : State := { State.reset with flow := { State.reset.flow with count := 100 } }
    (take1 at100 [0x62, 0x3F, 0xF0, 0, 0, 0, 0, 0, 0]).flow.target = 4195 ∧
    (take1 at100 [0x62, 0, 0, 0, 0, 0, 0, 0, 0]).flow.target = 101 ∧
    (take1 State.reset [0x62, 0x3F, 0xE0, 0, 0, 0, 0, 0, 0]).flow.target = 2048 ∧
    (take1 State.reset [0x62, 0x3F, 0x1A, 0x36, 0xE2, 0xEB, 0x1C, 0x43, 0x2D]).flow.target = 1 ∧
    wire (take1 State.reset [0x62, 0xBF, 0xF0, 0, 0, 0, 0, 0, 0]) = some [2] ∧
    wire (take1 State.reset [0x62, 0x41, 0x30, 0xC8, 0xE0, 0, 0, 0, 0]) = some [2] := by decide +kernel

/-- V-F5's edge queues Start then Target; V-F8's Stop; V-F7's wrap. -/
theorem test_flow_edges :
    let s := take1 (take1 State.reset [0xA1, 1]) [0x62, 0, 0, 0, 0, 0, 0, 0, 0]
    let t := take1 { s with now := 5000 } [0xF0, 27, 1]
    t.ntf.queue = [{ kind := .flowStart, a := 1, b := 0, c := 5000 }, { kind := .flowTarget, a := 1, b := 0, c := 5000 }] ∧
    t.flow.armed = false ∧ t.timers.flowIdle = some 1005000 ∧
    (fire1 { t with now := 1005000, ntf := { t.ntf with queue := [] } } .flowIdle).ntf.queue =
      [{ kind := .flowStop, a := 1, b := 0, c := 1005000 }] ∧
    (({ s with flow := { s.flow with count := 0xFFFFFFFF } } : State).flowEdge 0).flow.count = 0 := by decide +kernel

/-- V-F12, V-F15, and W6. -/
theorem test_flow_reads :
    wire (take1 { State.reset with flow := { State.reset.flow with count := 8190 } } [0x61]) =
      some [0, 0x40, 0, 0, 0, 0, 0, 0, 0] ∧
    wire (take1 { State.reset with flow := { State.reset.flow with count := 4 } } [0x61]) =
      some [0, 0x3F, 0x50, 0x01, 0x00, 0x10, 0x01, 0x00, 0x10] ∧
    wire (take1 State.reset [0x63]) = some [0, 0, 0, 0, 0, 0, 0] ∧ wire (take1 State.reset [0x60]) = some [0, 0, 0, 0, 0] := by
  decide +kernel

/-! ### Buttons (V-B) -/

/-- V-B1, V-B2. -/
theorem test_button_poll :
    let low := { take1 (take1 State.reset [0xA1, 2]) [0xF0, 22, 0] with
      now := 40000, timers := { State.reset.timers with btnPoll := some 40000 } }
    let t := fire1 low .btnPoll
    t.btn.mask = 1 ∧ t.ntf.queue = [{ kind := .button, a := 0, b := 1, c := 40000 }] ∧ t.timers.btnPoll = some 60000 ∧
    ({ t with now := 1500000, ntf := { t.ntf with queue := [] } } : State).applyMask 0 =
      { t with
        now := 1500000
        btn := { t.btn with mask := 0, lastChange := [1500000] }
        ntf := { t.ntf with queue := [{ kind := .button, a := 0, b := 0, c := 1460000 }] } } := by decide +kernel

/-- V-B5, V-B6, V-B7: 2.0, 1.5, 1.0, 3.0; 1.25, 2.5; 1.2, 1.74, 0.0; and an infinite voltage is no button (log entry 28),
in a table where 0.0 is one. -/
theorem test_ladder :
    [0x4000000000000000, 0x3FF8000000000000, 0x3FF0000000000000, 0x4008000000000000, 0x3FF4000000000000,
      0x4004000000000000, 0x3FF3333333333333, 0x3FFBD70A3D70A3D7, 0].map (ladder ladderConfig.ladderTable) =
      [1, 2, 3, 0, 0, 0, 3, 2, 0] ∧
    [0x7FF0000000000000, 0].map (ladder [one64, 0]) = [0, 1] := by decide +kernel

/-- V-B8, V-B10. -/
theorem test_ladder_poll :
    (({ take1 ladderReset [0xA1, 2] with now := 60000 } : State).ladderDone one64).ntf.queue =
      [{ kind := .button, a := 0, b := 1, c := 60000 }, { kind := .button, a := 1, b := 1, c := 60000 }] ∧
    (fire1 { ladderReset with now := 20000, btn := { ladderReset.btn with polling := true } } .btnPoll).bus =
      ladderReset.bus := by decide +kernel

/-- V-B4, V-B11. -/
theorem test_button_reads :
    wire (take1 State.reset [0x70, 1]) = some [2, 0] ∧ wire (take1 State.reset [0x70, 0]) = some [0, 0] ∧
    wire (take1 State.reset [0x71]) = some [0, 0, 0, 0, 0] := by decide +kernel

/-! ### PID (V-I) -/

/-- V-I5 and V-I1. -/
theorem test_pid_update :
    let p : Pid := { pGain := 0x3FF0000000000000, iGain := 0x3FE0000000000000, dGain := 0x4000000000000000
                     iMin := 0xC024000000000000, iMax := 0x4024000000000000, integrator := 0
                     lastPosition := 0x4034000000000000 }
    let s : State := { State.reset with pid := p }
    let t := take1 s [0x82, 0x40, 0x14, 0, 0, 0, 0, 0, 0, 0x40, 0x35, 0, 0, 0, 0, 0, 0]
    wire t = some [0, 0x40, 0x16, 0, 0, 0, 0, 0, 0] ∧ t.pid.lastPosition = 0x4035000000000000 ∧
    wire (take1 { State.reset with pid := { State.reset.pid with pGain := 0x4000000000000000 } }
      [0x82, 0x40, 0x08, 0, 0, 0, 0, 0, 0, 0, 0, 0, 0, 0, 0, 0, 0]) = some [0, 0x40, 0x18, 0, 0, 0, 0, 0, 0] := by
  decide +kernel

/-- V-I2, V-I4, V-I8, V-I11. -/
theorem test_pid_law :
    let p : Pid := { State.reset.pid with iGain := one64, iMin := 0xC014000000000000, iMax := 0x4014000000000000 }
    let errors : List Real64 := [0x4010000000000000, 0x4010000000000000, 0x4010000000000000, 0xC01C000000000000]
    (errors.foldl (fun p e => p.after .binary64 e 0) p).integrator = 0xC000000000000000 ∧
    (({ p with iMin := p.iMax, iMax := p.iMin }).after .binary64 0x4059000000000000 0).integrator = 0xC014000000000000 ∧
    ((State.reset.pid.drive .binary64 0x401C000000000000 0x4008000000000000).round .binary64) = 0 ∧
    (({ State.reset.pid with pGain := 0x7FE1CCF385EBC8A0 }).drive .binary64 0x7FE1CCF385EBC8A0 0).round .binary64 =
      0x7FF0000000000000 := by
  decide +kernel

/-- V-I6, V-I7 (the limits keep the integrator), V-I10. -/
theorem test_pid_settings :
    wire (take1 State.reset [0x80, 0x7F, 0xF8, 0, 0, 0, 0, 0, 0, 0, 0, 0, 0, 0, 0, 0, 0, 0, 0, 0, 0, 0, 0, 0, 0]) = some [2] ∧
    (take1 { State.reset with pid := { State.reset.pid with integrator := 0x4014000000000000 } }
      [0x81, 0xBF, 0xF0, 0, 0, 0, 0, 0, 0, 0x3F, 0xF0, 0, 0, 0, 0, 0, 0]).pid =
      { State.reset.pid with integrator := 0x4014000000000000, iMin := 0xBFF0000000000000, iMax := 0x3FF0000000000000 } ∧
    wire (take1 (heating 0 0 false false) [0x82, 0x3F, 0xF0, 0, 0, 0, 0, 0, 0, 0x3F, 0xF0, 0, 0, 0, 0, 0, 0]) =
      some [3, 0, 0, 0, 0, 0, 0, 0, 0] := by decide +kernel

/-- The order of the three gains, and PID.READ (V-I9's form). -/
theorem test_pid_read :
    wire (take1 (take1 State.reset
      [0x80, 1, 0, 0, 0, 0, 0, 0, 1, 2, 0, 0, 0, 0, 0, 0, 2, 3, 0, 0, 0, 0, 0, 0, 3]) [0x83]) =
      some ([0] ++ [1, 0, 0, 0, 0, 0, 0, 1] ++ [2, 0, 0, 0, 0, 0, 0, 2] ++ [3, 0, 0, 0, 0, 0, 0, 3] ++
        List.replicate 32 0) := by decide +kernel

/-! ### Regulator (V-E) -/

/-- V-E3: gain 0.25, target 92, a sample of 90. -/
theorem test_tick :
    let t := fire1 (heating 0x3FD0000000000000 0x4056800000000000 true true) .regTick
    t.pwm.value = 512 ∧ wire (take1 t [0x95]) = some [0, 0x40, 0x56, 0x80, 0, 0, 0, 0, 0, 0x3F, 0xE0, 0, 0, 0, 0, 0, 0] ∧
    t.timers.regTick = some 1000000 := by decide +kernel

/-- V-E4's gate, V-E5, V-E6, V-E7. -/
theorem test_tick_gates :
    (fire1 (heating 0x3FD0000000000000 0x4056800000000000 true false) .regTick).pwm.value = 0 ∧
    (fire1 (heating 0x3FD0000000000000 0x4056800000000000 false true) .regTick).reg.latestTemp = 0x4056800000000000 ∧
    (fire1 (heating 0x3FD0000000000000 0x3FE0000000000000 true true) .regTick).pwm.value = 0 ∧
    (fire1 (heating 0x3FD0000000000000 0x3FE0000000000001 true true) .regTick).pwm.value = 1024 ∧
    (fire1 (heating 0x3FF0000000000000 0x4056800000000000 true true) .regTick).pwm.frac = one64 := by decide +kernel

/-- V-E11: gains (1e308, 0, 1e308) overflow to infinities of opposite sign. -/
theorem test_abnormal_exit :
    let s := heating 0x7FE1CCF385EBC8A0 0x4056800000000000 true true
    let t := fire1 { s with pid := { s.pid with dGain := 0x7FE1CCF385EBC8A0 } } .regTick
    t.reg.state = .stopped ∧ t.reg.fault = true ∧ t.pwm.value = 0 ∧ t.reg.latestTemp = 0x4056800000000000 ∧
    t.pid.lastPosition = 0x4056800000000000 ∧ t.timers.regTick = none ∧ (take1 t [0x90]).reg.fault = false := by
  decide +kernel

/-- V-E2, V-E8, V-E9. -/
theorem test_start_stop :
    (take1 (resetAt 5000) [0x90]).timers.regTick = some 5000 ∧
    (take1 (take1 (resetAt 5000) [0x90]) [0x90]).timers.regTick = some 5000 ∧
    (take1 (take1 State.reset [0x30, 0x3F, 0xE0, 0, 0, 0, 0, 0, 0]) [0x91]).pwm.value = 0 := by decide +kernel

/-- V-E10. -/
theorem test_settimestep :
    (take1 State.reset [0x93, 0x3F, 0xE0, 0, 0, 0, 0, 0, 0]).reg.periodUs = 500000 ∧
    wire (take1 State.reset [0x93, 0x3E, 0x9A, 0xD7, 0xF2, 0x9A, 0xBC, 0xAF, 0x48]) = some [2] ∧
    wire (take1 State.reset [0x93, 0, 0, 0, 0, 0, 0, 0, 0]) = some [2] := by decide +kernel

/-- V-E1, and R438 and R440. -/
theorem test_reg_status :
    wire (take1 State.reset [0x96]) = some [0, 0, 0, 0, 0, 0, 0, 0, 0, 0, 0, 0, 0x3F, 0xF0, 0, 0, 0, 0, 0, 0] ∧
    wire (take1 (take1 (take1 State.reset [0x92, 0x40, 0x57, 0, 0, 0, 0, 0, 0]) [0x94, 1]) [0x96]) =
      some [0, 0, 0, 1, 0x40, 0x57, 0, 0, 0, 0, 0, 0, 0x3F, 0xF0, 0, 0, 0, 0, 0, 0] := by decide +kernel

/-! ### Notifications (V-N) -/

/-- V-N1. -/
theorem test_queue_full :
    let s := (List.range 17).foldl (fun s _ => s.emit { kind := .button, a := 0, b := 0, c := 0 })
      (take1 State.reset [0xA1, 7])
    wire (take1 s [0xA2]) = some [0, 0x10, 0, 0, 0, 1, 7] := by decide +kernel

/-- V-N2, V-N3, V-N4. -/
theorem test_pop :
    let t := take1 { take1 State.reset [0xA1, 1] with now := 1000 } [0xF0, 27, 1]
    wire (take1 State.reset [0xA0]) = some [7, 0, 0, 0, 0, 0, 0, 0, 0, 0, 0, 0, 0, 0] ∧
    wire (take1 State.reset [0xA1, 8]) = some [2] ∧ t.irq = true ∧ (take1 t [0xA0]).irq = false ∧
    wire (take1 t [0xA0]) = some [0, 1, 0, 0, 0, 1, 0, 0, 0, 0, 0, 0, 0x03, 0xE8] := by decide +kernel

/-! ### Witnesses: the hypotheses of the statements are met together

Each theorem is named after its statement; where a statement has several clauses, each clause has its state, at a boundary
value where its range has one. -/

/-- What the host presents next: a frame, chosen as the next step. -/
def presented (f : Frame) : State := State.reset.present f

/-- A state in which the next step fires `a`, pending and due. -/
def firing (a : Action) (s : State) (due : Nat) : State :=
  { s with outside := { s.outside with picks := [.timed a] }, timers := s.timers.set a (some due) }

/-- A GPIO.PULSE of 10 µs holding the port. -/
def pulsing : State := take1 pin3Out [0x03, 3, 1, 0, 0, 0, 0x0A]

/-- A conversion of channel 2 in flight for the host. -/
def converting : State :=
  { State.reset with
    port := .held { op := .getVoltage 2, tAcc := 0, tDl := none }
    adc := { State.reset.adc with phase := .converting 2 .host 0 }
    timers := { State.reset.timers with adcPoll := some 1000 } }

/-- A published sample of 1.0 m and the sampler's measurement under way. -/
def sampling (attempt : Attempt) : State :=
  { State.reset with range := { State.reset.range with filtered := one64, valid := true, attempt := attempt } }

/-- A result of each type, and the response of a command that answers 1.0. -/
theorem witness_ResponseFrames :
    (Val.u8 7 = .u8 7 ∧ 7 = (7 : Byte).toNat) ∧ (Val.u32 1 = .u32 1 ∧ 1 = (1 : U32).toNat) ∧
    (Val.real one64 = .real one64 ∧ 0x3FF0000000000000 = one64.toNat) ∧
    ({ status := .ok, results := [.real one64] } : Response).frame = [0, 0x3F, 0xF0, 0, 0, 0, 0, 0, 0] := by decide

theorem witness_DecodeThenEncode :
    decodeOn .host [0x01, 3, 1] = .ok (.gpioWrite 3 1) ∧ decodeOn .environment [0xF0, 3, 1] = .ok (.envPin 3 1) := by decide

theorem witness_UnlistedOpcode :
    ((presented [0xB0]).cfg.wellFormed = true ∧ (presented [0xB0]).nextPick.1 = .host ∧ (presented [0xB0]).port = .idle ∧
      (presented [0xB0]).outside.hostIn = [[0xB0]] ∧
      (0xB0 : Byte).toNat ∉ [0x00, 0x01, 0x02, 0x03, 0x04, 0x05, 0x06, 0x07, 0x10, 0x11, 0x12, 0x13, 0x20, 0x21, 0x30, 0x31,
        0x32, 0x33, 0x34, 0x35, 0x40, 0x41, 0x50, 0x51, 0x52, 0x53, 0x60, 0x61, 0x62, 0x63, 0x70, 0x71, 0x72, 0x80, 0x81,
        0x82, 0x83, 0x90, 0x91, 0x92, 0x93, 0x94, 0x95, 0x96, 0xA0, 0xA1, 0xA2]) ∧
    ((presented [0xF2, 0]).nextPick.1 = .env ∧ (presented [0xF2, 0]).outside.envIn = [[0xF2, 0]] ∧
      (0xF2 : Byte) ≠ 0xF0 ∧ (0xF2 : Byte) ≠ 0xF1) := by decide +kernel

theorem witness_StepRunsDecoded :
    ((presented [0x10]).cfg.wellFormed = true ∧ (presented [0x10]).nextPick.1 = .host ∧ (presented [0x10]).port = .idle ∧
      (presented [0x10]).outside.hostIn = [[0x10]] ∧ decodeOn .host [0x10] = .ok .clkNow) ∧
    ((presented [0xF0, 5, 1]).nextPick.1 = .env ∧ (presented [0xF0, 5, 1]).outside.envIn = [[0xF0, 5, 1]] ∧
      decodeOn .environment [0xF0, 5, 1] = .ok (.envPin 5 1)) := by decide +kernel

theorem witness_StepChoices :
    ({ pulsing with outside := { pulsing.outside with picks := [.host] } } : State).nextPick.1 = .host ∧
    pulsing.port = .held { op := .pulse 3 1 10, tAcc := 0, tDl := some 10 } ∧ pulsing.cfg.wellFormed = true ∧
    (firing .hostDeadline pulsing 0).nextPick.1 = .timed .hostDeadline ∧
    (firing .hostDeadline pulsing 0).timers.get .hostDeadline = some 0 ∧ (firing .hostDeadline pulsing 0).now = 0 ∧
    (firing .hostDeadline pulsing 1).timers.get .hostDeadline = some 1 ∧ (firing .hostDeadline pulsing 1).now = 0 ∧
    ({ State.reset with cfg := { Config.vector with npins := 1 } } : State).cfg.wellFormed = false := by decide +kernel

theorem witness_IllFormedOperands :
    (Instr.gpioWrite 3 2).wellFormed = false ∧ (Instr.gpioWrite 3 2).port = .host ∧ (Instr.envPin 5 2).wellFormed = false ∧
    (Instr.envPin 5 2).port = .environment := by decide

theorem witness_RaiseChangesNothing :
    exec .ntfPop State.reset = .next (State.reset.reply .empty [.u8 0, .u32 0, .u32 0, .u32 0]) ∧
    (State.reset.reply .empty [.u8 0, .u32 0, .u32 0, .u32 0]).responses =
      State.reset.responses ++ [{ status := .empty, results := [.u8 0, .u32 0, .u32 0, .u32 0] }] ∧
    Status.empty ∈ [Status.illegal, .badarg, .busy, .empty] := ⟨rfl, rfl, by decide⟩

/-- Pin 28 is the first that does not exist; pins 17 and 27 are owned; pin 0 is the host's. -/
theorem witness_PinOwnership :
    State.reset.cfg.npins ≤ (28 : Byte).toNat ∧ (27 : Byte).toNat < State.reset.cfg.npins ∧
    (State.reset.pin (17 : Byte).toNat).owner ≠ .host ∧ (State.reset.pin 0).owner = .host ∧
    (1 : Byte).toNat ≤ 1 ∧ (3 : Byte).toNat ≤ 3 ∧ (1000000 : U32) ≠ 0 ∧
    (1000000 : U32).toNat ≤ State.reset.cfg.pulseMaxUs := by decide +kernel

theorem witness_GpioPulse : pulsing.port = .held { op := .pulse 3 1 10, tAcc := 0, tDl := some 10 } := by decide +kernel

/-- A port held by an edge wait, held by another command, and IDLE. -/
theorem witness_GpioWaitedge :
    (take1 (pin4Mode 1) [0x05, 4, 0, 0, 0, 0]).port = .held { op := .waitEdge 4 0, tAcc := 0, tDl := some 0 } ∧
    (∀ p t tAcc tDl, pulsing.port ≠ .held { op := .waitEdge p t, tAcc := tAcc, tDl := tDl }) ∧
    ∀ p t tAcc tDl, State.reset.port ≠ .held { op := .waitEdge p t, tAcc := tAcc, tDl := tDl } := by
  refine ⟨by decide +kernel, fun p t tAcc tDl h => ?_, fun p t tAcc tDl h => by cases h⟩
  have : pulsing.port = .held { op := .pulse 3 1 10, tAcc := 0, tDl := some 10 } := by decide +kernel
  rw [this] at h
  cases h

/-- The stopwatch stopped in the step it started, and running. -/
theorem witness_StopwatchElapsed : (take1 (take1 State.reset [0x11]) [0x12]).ClockLegal ∧ (take1 State.reset [0x11]).ClockLegal := by
  simp only [State.ClockLegal]; decide +kernel

/-- In POLL mode only the button poll is pending, at 20 000, the last admissible time. -/
theorem witness_EnvTime :
    (pollReset.now < (20000 : U64).toNat ∧
      ∀ a due, pollReset.timers.get a = some due → pollReset.now < due ∧ (20000 : U64).toNat ≤ due) ∧
    ¬(pollReset.now < (20001 : U64).toNat ∧
      ∀ a due, pollReset.timers.get a = some due → pollReset.now < due ∧ (20001 : U64).toNat ≤ due) := by
  have h : ∀ a due, pollReset.timers.get a = some due → due = 20000 := by
    intro a due; cases a <;> intro h <;>
      simp_all [pollReset, State.resetWith, State.resetAs, Config.rounded, noTimers, Timers.get, Config.vector]
  refine ⟨⟨by decide +kernel, fun a due hd => ?_⟩, fun ⟨_, hall⟩ => ?_⟩
  · rw [h a due hd]; decide +kernel
  · exact absurd (hall .btnPoll 20000 (by decide +kernel)).2 (by decide)

theorem witness_TimeChangesOnlyByEnvTime :
    step (pollReset.present [0xF1, 0, 0, 0, 0, 0, 0, 0, 1]) = .next (take1 pollReset [0xF1, 0, 0, 0, 0, 0, 0, 0, 1]) :=
  step_take1 (by decide +kernel)

theorem witness_AdcOpen :
    ({ State.reset.outside with acks := [true] } : Outside).acks = [true] ∧ State.reset.outside.acks = [] ∧
    ({ State.reset.outside with reads := [none] } : Outside).reads = [none] ∧ State.reset.outside.reads = [] := by
  decide +kernel

theorem witness_AdcConfigWord : Config.vector.adcPga = 0b001 ∧ Config.vector.adcDr = 0b100 := by decide

theorem witness_ConversionCommands :
    State.reset.AdcSound ∧ 3 < (4 : Byte).toNat ∧ (3 : Byte).toNat ≤ 3 ∧ State.reset.adc.presence ≠ .absent ∧
    (State.resetWith Config.vector false none).AdcSound ∧
    (State.resetWith Config.vector false none).adc.presence = .absent :=
  ⟨⟨rfl, rfl⟩, by decide, by decide, by decide +kernel, ⟨rfl, rfl⟩, by decide +kernel⟩

/-- A conversion in flight, its queue empty, and the button unit waiting behind it, whose Config write of channel 1 is
acknowledged or not; what each requester is given exists by its equation. -/
theorem witness_AdcPoll :
    converting.adc.phase = .converting 2 .host 0 ∧ converting.adc.queue = [] ∧
    ({ converting.adc with queue := [(1, .btn)] } : Adc).queue = (1, .btn) :: [] ∧
    ([0x01, 0xD3, 0x83] : Frame) =
      [0x01, (adcConfigWord converting.cfg 1).extractLsb' 8 8, (adcConfigWord converting.cfg 1).extractLsb' 0 8] ∧
    ({ converting.outside with acks := [true] } : Outside).nextAck.1 = true ∧
    ({ converting.outside with acks := [false] } : Outside).nextAck.1 = false := by decide +kernel

theorem witness_VoltsOrdered :
    Config.vector.realFmt.legal = true ∧ vector32.realFmt.legal = true ∧ 0 < Config.vector.fsCounts ∧
    32768 ≤ Config.vector.fsCounts ∧ (0x8000 : BitVec 16).toInt ≤ (0x7FFF : BitVec 16).toInt ∧ Config.vector.fsCounts = 32768 := by
  decide

/-- A PWM as reset leaves it, disabled, and at value = range; -0.0, 1.0, and values on both sides of [0, 1]. -/
theorem witness_PwmValue :
    (State.reset.PwmLegal ∧ 16384 = State.reset.pwm.divisor.toNat * State.reset.pwm.range.toNat ∧
      0 = State.reset.pwm.value.toNat * State.reset.pwm.divisor.toNat ∧ State.reset.pwm.value = 0 ∧
      State.reset.pwm.enabled = true) ∧
    (take1 State.reset [0x34]).PwmLegal ∧ (take1 State.reset [0x34]).pwm.enabled = false ∧
    (State.reset.pwmSet one64).PwmLegal ∧ (State.reset.pwmSet one64).pwm.value = (State.reset.pwmSet one64).pwm.range ∧
    State.reset.cfg.realFmt.legal = true ∧ State.reset.cfg.realFmt = .binary64 ∧ reset32.cfg.realFmt.legal = true ∧
    (realFinite negZero64 = true ∧ realRat negZero64 ≤ 0 ∧ 0 ≤ realRat negZero64) ∧
    (realFinite one64 = true ∧ realRat one64 ≤ 1 ∧ 1 ≤ realRat one64) ∧
    realRat 0xBFF0000000000000 ≤ 0 ∧ 1 ≤ realRat 0x4000000000000000 := by
  simp only [State.PwmLegal]; decide +kernel

/-- No rise; a pulse of exactly the bit period; the longest and the shortest bit on each side of half a period. -/
theorem witness_TempEdges :
    State.reset.temp.lastRise = none ∧ (State.reset.temp.rise 0).lastRise = some 0 ∧
    ((125 : U32) - 0).toNat % 2 ^ State.reset.cfg.tsWidth = State.reset.cfg.tBitUs ∧
    ((124 : U32) - 0).toNat % 2 ^ State.reset.cfg.tsWidth < State.reset.cfg.tBitUs ∧ State.reset.cfg.tempFrameBits = 20 ∧
    (0 : U32).toNat = (2 * State.reset.temp.word.toNat + if 2 * 63 < State.reset.cfg.tBitUs then 1 else 0) % 2 ^ 20 ∧
    (1 : U32).toNat = (2 * State.reset.temp.word.toNat + if 2 * 62 < State.reset.cfg.tBitUs then 1 else 0) % 2 ^ 20 := by
  decide +kernel

/-- The 100 °C frame of V-T3, whose packets are even and whose prefix is zero. -/
theorem witness_TempDecodeFrame :
    Config.vector.tempFrameBits = 20 ∧
    true = decide ((List.range 9).countP (fun i => (0x82BFE : U32).getLsbD (10 + i)) % 2 = 0) ∧
    true = decide ((List.range 9).countP (fun i => (0x82BFE : U32).getLsbD i) % 2 = 0) ∧
    true = decide ((0x82BFE : U32).toNat / 2 ^ 14 % 2 ^ 5 = 0) ∧
    (0x4058FE6FCDF9BF38 : Real64) = roundRat .binary64 (realRat Config.vector.minTemp +
      (((0x82BFE : U32).toNat / 2 ^ 11 % 2 ^ 3 * 2 ^ 8 + (0x82BFE : U32).toNat / 2 % 2 ^ 8 : Nat) : Rat) *
        (realRat Config.vector.maxTemp - realRat Config.vector.minTemp) / 2047) ∧
    true = (realLe Config.vector.minTemp 0x4058FE6FCDF9BF38 && realLe 0x4058FE6FCDF9BF38 Config.vector.maxTemp) := by
  decide +kernel

theorem witness_TempFrameAssembled :
    State.reset.temp.bitCount = 0 ∧ State.reset.temp.word = 0 ∧
    (List.replicate 19 ((5, 5) : U32 × U32)).length + 1 = Config.vector.tempFrameBits ∧ Config.vector.tempFrameBits ≤ 32 ∧
    ∀ p ∈ List.replicate 19 ((5, 5) : U32 × U32) ++ [(0xFFFFFFFF, 123)],
      (p.2 - p.1).toNat % 2 ^ Config.vector.tsWidth < Config.vector.tBitUs := by
  refine ⟨by decide +kernel, by decide +kernel, by decide +kernel, by decide, fun p hp => ?_⟩
  rcases List.mem_append.1 hp with h | h
  · rw [List.eq_of_mem_replicate h]; decide +kernel
  · rw [List.mem_singleton.1 h]; decide +kernel

theorem witness_TempAlwaysInRange : Config.vector.wellFormed = true ∧ vector32.rounded.wellFormed = true := by decide +kernel

/-- No trigger yet, and one at 0, which delays the next start to 100 000; a READY that holds the port in BACKGROUND mode. -/
theorem witness_RangeCommands :
    (take1 State.reset [0x52]).port = .held { op := .ready, tAcc := 0, tDl := some 500000 } ∧
    (0 = match State.reset.range.lastTrigger with
      | none => State.reset.now
      | some t => max State.reset.now (t + State.reset.cfg.minTriggerIntervalUs)) ∧
    (100000 = match (State.reset.measureStart .host).range.lastTrigger with
      | none => State.reset.now
      | some t => max State.reset.now (t + State.reset.cfg.minTriggerIntervalUs)) := by decide +kernel

theorem witness_MeasurementSteps :
    realFinite State.reset.range.speed = true ∧ realSign State.reset.range.speed = false ∧
    Action.rangeRetry ∈ [Action.rangeSample, .rangeRetry, .rangeHostTrig] := by decide +kernel

/-- A MEASURE and a READY whose measurement ends, READY's exactly at its bound of 500 000. -/
theorem witness_HostMeasurementEnds :
    let trig := fire1 (take1 pollReset [0x50]) .rangeHostTrig
    let ready := { fire1 (take1 pollReset [0x52]) .rangeHostTrig with now := 500000 }
    trig.range.req = .host ∧ trig.port = .held { op := .measure, tAcc := 0, tDl := none } ∧ ready.range.req = .host ∧
    ready.port = .held { op := .ready, tAcc := 0, tDl := none } ∧ ready.cfg.readyTimeoutUs ≤ ready.now - 0 ∧
    (100000 = match trig.range.lastTrigger with
      | none => trig.now
      | some t => max trig.now (t + trig.cfg.minTriggerIntervalUs)) := by decide +kernel

/-- The first sample; a first attempt 0.5 m away; a retry; a first attempt at `filtered` itself; and a retry of -1.0 m, whose
smoothed value is 0. -/
theorem witness_SamplerGate :
    (sampling .first).range.req = .sampler ∧ State.reset.range.req = .sampler ∧ State.reset.range.valid = false ∧
    (sampling .first).range.valid = true ∧ (sampling .first).range.attempt = .first ∧
    (sampling .retry).range.attempt = .retry ∧
    realFinite one64 = true ∧ realFinite 0x3FF8000000000000 = true ∧ realFinite (sampling .first).range.filtered = true ∧
    realFinite Config.vector.gateM = true ∧ realFinite Config.vector.smoothK = true ∧
    realRat Config.vector.gateM < |realRat 0x3FF8000000000000 - realRat (sampling .first).range.filtered| ∧
    |realRat one64 - realRat (sampling .first).range.filtered| ≤ realRat Config.vector.gateM ∧
    5 / 4 = realRat (sampling .first).range.filtered +
      realRat Config.vector.smoothK * (realRat 0x3FF8000000000000 - realRat (sampling .first).range.filtered) ∧
    realFinite 0xBFF0000000000000 = true ∧
    0 = realRat (sampling .retry).range.filtered +
      realRat Config.vector.smoothK * (realRat 0xBFF0000000000000 - realRat (sampling .retry).range.filtered) := by
  decide +kernel

theorem witness_FlowSteps : (1 : U32) = State.reset.flow.count + 1 := by decide +kernel

/-- 0.5 l at 4095 edges a litre; and a well-formed configuration of binary32. -/
theorem witness_FlowCommands :
    State.reset.cfg.wellFormed = true ∧ reset32.cfg.wellFormed = true ∧
    2048 = (realRat 0x3FE0000000000000 * realRat State.reset.cfg.countsPerLitre + 1 / 2).floor := by decide +kernel

/-- One edge short of the target, before and after that edge. -/
theorem witness_FlowTargetOnce :
    let s : State := { State.reset with
      flow := { State.reset.flow with armed := true, target := 1 }, ntf := { State.reset.ntf with enable := 1 } }
    s.flow.armed = true ∧ s.flow.target = s.flow.count + 1 ∧ (1 : U32) ≠ 0 ∧ s.ntf.enable.getLsbD 0 = true ∧
    s.ntf.queue.length + 2 ≤ s.cfg.ntfDepth ∧ ([] : List U32).length < (1 : U32).toNat ∧
    (1 : U32).toNat ≤ ([7] : List U32).length := by decide +kernel

theorem witness_ButtonsApply : ladderReset.btn.lastChange.length = ladderReset.cfg.nbtn := by decide +kernel

/-- PINS mode; and LADDER mode with the ADC idle, and with a conversion of the host in flight. -/
theorem witness_ButtonPoll :
    (State.reset.cfg.wellFormed = true ∧ State.reset.cfg.btnMode = .pins) ∧
    (ladderReset.cfg.btnMode = .ladder ∧ ladderReset.AdcSound) ∧
    (let s := { converting with cfg := ladderConfig }; s.cfg.btnMode = .ladder ∧ s.AdcSound) :=
  ⟨by decide +kernel, ⟨rfl, rfl, rfl⟩, rfl, 1000, rfl, by decide +kernel⟩

/-- An infinite voltage; and the table [3.0, 2.0, 1.5, 1.0] and the voltage 1.25, midway between entries 2 and 3: tolerance
1/4, and entry 2 wins the tie. -/
theorem witness_LadderNearest :
    let table := ladderConfig.ladderTable
    let v : Real64 := 0x3FF4000000000000
    realFinite 0x7FF0000000000000 = false ∧ realFinite v = true ∧
    (∀ k < table.length, ∀ i < k, 2 * (1 / 4 : Rat) ≤ |realRat (table.getD i 0) - realRat (table.getD k 0)|) ∧
    2 * (1 / 4 : Rat) = |realRat (table.getD 1 0) - realRat (table.getD 2 0)| ∧ 2 < table.length ∧
    (∀ k < table.length, |realRat v - realRat (table.getD 2 0)| ≤ |realRat v - realRat (table.getD k 0)|) ∧
    (∀ k < 2, |realRat v - realRat (table.getD 2 0)| < |realRat v - realRat (table.getD k 0)|) := by decide +kernel

/-- Finite operands, stopped and running, and the gains of V-E11, whose drive is no number. -/
theorem witness_PidCommands :
    let p : Pid := { State.reset.pid with pGain := 0x7FE1CCF385EBC8A0, dGain := 0x7FE1CCF385EBC8A0 }
    State.reset.cfg.realFmt = .binary64 ∧
    realFinite 0x7FF0000000000000 = false ∧ realFinite 0x4000000000000000 = true ∧ realFinite one64 = true ∧
    State.reset.reg.state = .stopped ∧ (heating 0 0 false false).reg.state = .running ∧
    State.reset.pid.drive .binary64 one64 one64 ≠ .nan ∧
    p.drive .binary64 0x4000000000000000 0x4056800000000000 = .nan := by decide +kernel

/-- Limits in order, equal and inverted, and an infinite error. -/
theorem witness_IntegratorClamped :
    realFinite one64 = true ∧ realFinite (0 : Real64) = true ∧ realNaN 0x7FF0000000000000 = false ∧
    realRat 0 ≤ realRat one64 ∧ realRat one64 ≤ realRat one64 ∧ realRat 0xBFF0000000000000 < realRat one64 := by
  decide +kernel

/-- A time step of 0.5 s, and one whose period is the least, 1. -/
theorem witness_RegSettings :
    500000 = (realRat 0x3FE0000000000000 * 1000000 + 1 / 2).floor ∧
    1 = (realRat 0x3EB0C6F7A0B5ED8D * 1000000 + 1 / 2).floor := by decide +kernel

/-- An invalid reading at the sentinel itself, a valid one, and V-E11's drive. -/
theorem witness_RegTick :
    let s := heating 0x7FE1CCF385EBC8A0 0x4056800000000000 true true
    let n : State := { s with pid := { s.pid with dGain := 0x7FE1CCF385EBC8A0 } }
    s.reg.state = .running ∧ s.temp.sample.value = 0x4056800000000000 ∧ s.temp.sample.valid = true ∧
    realLe 0x3FE0000000000000 s.cfg.regSentinel = true ∧ realLe 0x4056800000000000 s.cfg.regSentinel = false ∧
    (0x4000000000000000 : Real64) = ((realNum s.reg.target).sub (realNum 0x4056800000000000)).round .binary64 ∧
    s.cfg.realFmt = .binary64 ∧ RealFmt.binary64.legal = true ∧ s.pid.drive .binary64 0x4000000000000000 0x4056800000000000 ≠ .nan ∧
    n.pid.drive .binary64 0x4000000000000000 0x4056800000000000 = .nan := by decide +kernel

theorem witness_Notifications :
    1 = (match NtfKind.button with | .flowStart => 0 | .flowStop => 0 | .flowTarget => 0 | .button => 1 | .edge => 2) ∧
    State.reset.ntf.queue = [] ∧
    (take1 (take1 State.reset [0xA1, 1]) [0xF0, 27, 1]).ntf.queue = [{ kind := .flowStart, a := 1, b := 0, c := 0 }] := by
  decide +kernel

/-- 1/3 in both formats, and the tie 1 + 2^-24 of binary32 between 1.0 and 1 + 2^-23. -/
theorem witness_RoundingIsNearest :
    RealFmt.binary64.legal = true ∧ 0x3FD5555555555555 = roundRat .binary64 (1 / 3) ∧ binary32.legal = true ∧
    0x3FD5555560000000 = roundRat binary32 (1 / 3) ∧ one64 = roundRat binary32 (1 + 1 / 2 ^ 24) ∧
    realFinite one64 = true ∧ realFinite 0x3FF0000020000000 = true ∧ inFormat binary32 0x3FF0000020000000 = true ∧
    |realRat one64 - (1 + 1 / 2 ^ 24)| = |realRat 0x3FF0000020000000 - (1 + 1 / 2 ^ 24)| ∧
    realRat 0x3FF0000020000000 ≠ realRat one64 := by decide +kernel

theorem witness_FormulasAreExact :
    realFinite one64 = true ∧ Num.fin 2 = (realNum one64).add (realNum one64) ∧ (2 : Rat) = realRat one64 + realRat one64 ∧
    Num.fin 0 = (realNum one64).sub (realNum one64) ∧ (0 : Rat) = realRat one64 - realRat one64 := by
  decide +kernel

theorem witness_ResetValues : ladderConfig.wellFormed = true ∧ Config.vector.wellFormed = true := by decide +kernel

theorem witness_ResetMeetsInvariants :
    ladderConfig.rounded.wellFormed = true ∧ pollReset.cfg.rounded.wellFormed = true ∧ vector32.rounded.wellFormed = true := by
  decide +kernel

/-! The invariants: a state that has them all, and a step from it. -/

theorem reset_scheduleSound (o : Outside) : ({ State.reset with outside := o } : State).ScheduleSound :=
  ⟨fun _ _ _ => Nat.zero_le _, rfl, ⟨rfl, rfl⟩, rfl⟩

theorem reset_sound (o : Outside) : ({ State.reset with outside := o } : State).Sound := by
  refine ⟨reset_scheduleSound o, ⟨rfl, rfl, rfl, fun _ => rfl⟩, trivial, ⟨?_, ?_⟩, ?_⟩
  · simp [State.MeasurementTimed, State.reset, State.resetWith, State.resetAs, Config.rounded, noTimers]
  · simp [State.reset, State.resetWith, State.resetAs, Config.rounded, noTimers, Config.vector]
  · intro a _ due last _ hl; simp [State.reset, State.resetWith, State.resetAs] at hl

theorem witness_StepKeepsScheduleSound :
    (presented [0x10]).ScheduleSound ∧ step (presented [0x10]) = .next (take1 State.reset [0x10]) :=
  ⟨reset_scheduleSound _, step_take1 (by decide +kernel)⟩

theorem witness_SoundStepNeverFaults : (presented [0x10]).ScheduleSound := reset_scheduleSound _

theorem witness_StepKeepsHoldsServed :
    (presented [0x52]).Sound ∧ step (presented [0x52]) = .next (take1 State.reset [0x52]) := ⟨reset_sound _, step_take1 (by decide +kernel)⟩

theorem witness_StepKeepsRangeLoop :
    (presented [0x52]).Sound ∧ step (presented [0x52]) = .next (take1 State.reset [0x52]) := ⟨reset_sound _, step_take1 (by decide +kernel)⟩

/-- A state at time 0 without a trigger yet is sound when its hold, its conversions, its regulator and its range loop are. -/
theorem sound_at_zero {s : State} (now : s.now = 0) (last : s.range.lastTrigger = none)
    (h : s.HoldSound ∧ s.AdcSound ∧ s.RegSound ∧ s.RequestsSound ∧ s.HoldTimed ∧ s.RangeLoop) : s.Sound :=
  ⟨⟨fun _ _ _ => now ▸ Nat.zero_le _, h.1, h.2.1, h.2.2.1⟩, h.2.2.2.1, h.2.2.2.2.1, h.2.2.2.2.2,
    fun _ _ _ _ _ e => by rw [last] at e; cases e⟩

/-- The state `s` with a command that holds the port since 0, and its deadline. -/
def holding (s : State) (op : HeldOp) (dl : Option Nat) : State :=
  { s with port := .held { op := op, tAcc := 0, tDl := dl }, timers := { s.timers with hostDeadline := dl } }

/-- That state with a conversion in flight for the given requester. -/
def holdingAdc (op : HeldOp) (req : AdcReq) : State :=
  let s := holding State.reset op none
  { s with adc := { s.adc with phase := .converting 0 req 0 }, timers := { s.timers with adcPoll := some 1000 } }

/-- That state in POLL mode, its measurement about to start. -/
def holdingRange (op : HeldOp) : State :=
  let s := holding pollReset op none
  { s with timers := { s.timers with rangeHostTrig := some 0 } }

/-- Each command that holds the port, a READY in both modes. -/
theorem witness_HeldPortHasPendingAction :
    ((holding State.reset (.pulse 3 1 10) (some 10)).Sound ∧ (holding State.reset (.waitEdge 4 0) (some 0)).Sound ∧
      (holding State.reset .ready (some 500000)).Sound) ∧
    ((holdingAdc (.getVoltage 0) .host).Sound ∧ (holdingAdc .getBar .press).Sound) ∧
    ((holdingRange .measure).Sound ∧ (holdingRange .ready).Sound) ∧
    (holding State.reset (.pulse 3 1 10) (some 10)).port = .held { op := .pulse 3 1 10, tAcc := 0, tDl := some 10 } := by
  refine ⟨⟨?_, ?_, ?_⟩, ⟨?_, ?_⟩, ⟨?_, ?_⟩, rfl⟩ <;> refine sound_at_zero rfl rfl ?_ <;>
    simp [State.HoldSound, State.AdcSound, State.RegSound, State.RequestsSound, State.HoldTimed, State.RangeLoop,
      State.MeasurementTimed, State.awaitsVoltage, State.awaitsBar, State.awaitsRange, Adc.outstanding,
      HeldOp.mayHaveDeadline, holding, holdingAdc, holdingRange, pollReset, State.reset, State.resetWith,
      State.resetAs, Config.rounded, noTimers, Config.vector]

theorem witness_StepKeepsUnitsLegal :
    ((presented [0x10]).PwmLegal ∧ (presented [0x10]).QueueLegal ∧ (presented [0x10]).DecoderLegal ∧
      (presented [0x10]).ClockLegal) ∧ step (presented [0x10]) = .next (take1 State.reset [0x10]) := by
  refine ⟨?_, step_take1 (by decide +kernel)⟩
  simp only [State.PwmLegal, State.QueueLegal, State.DecoderLegal, State.ClockLegal]; decide +kernel

theorem witness_StepKeepsButtonsLegal :
    (presented [0x10]).Sound ∧ (presented [0x10]).ButtonsLegal ∧ step (presented [0x10]) = .next (take1 State.reset [0x10]) := by
  refine ⟨reset_sound _, ?_, step_take1 (by decide +kernel)⟩
  simp only [State.ButtonsLegal]; decide +kernel

theorem witness_StepKeepsRealsLegal :
    (presented [0x10]).RealsLegal ∧ step (presented [0x10]) = .next (take1 State.reset [0x10]) := by
  refine ⟨?_, step_take1 (by decide +kernel)⟩
  simp only [State.RealsLegal]; decide +kernel

theorem witness_StepKeepsWiring : step (presented [0x10]) = .next (take1 State.reset [0x10]) :=
  step_take1 (by decide +kernel)

end Sys2Proof.Tests
end

/-! SUPPORT. The state after reset (R36, R701, R702): the pins' wiring, the pending timed actions and the units' values, and
the statement about all of them. -/

namespace Sys2Proof.Machine

/-! ### The pins that parameters name (R10) -/

theorem pinsDistinct_iff (c : Config) :
    c.pinsDistinct = true ↔ c.namedPins.Nodup ∧ ∀ p ∈ c.namedPins, p < c.npins := by
  simp [Config.pinsDistinct]

theorem pinsDistinct_of_wellFormed {c : Config} (h : c.wellFormed = true) : c.pinsDistinct = true :=
  ((wellFormed_iff c).1 h).1

/-- The pins that a unit other than the buttons owns, in every mode. -/
def unitPins (c : Config) : List Nat := [c.pinTemp, c.pinTrig, c.pinEcho, c.pinFlow, c.pinPwm]

theorem unitPins_ne {c : Config} (h : c.pinsDistinct = true) :
    c.pinTemp ≠ c.pinTrig ∧ c.pinTemp ≠ c.pinEcho ∧ c.pinTemp ≠ c.pinFlow ∧ c.pinTemp ≠ c.pinPwm ∧
      c.pinTrig ≠ c.pinEcho ∧ c.pinTrig ≠ c.pinFlow ∧ c.pinTrig ≠ c.pinPwm ∧
      c.pinEcho ≠ c.pinFlow ∧ c.pinEcho ≠ c.pinPwm ∧ c.pinFlow ≠ c.pinPwm := by
  have nodup : (unitPins c).Nodup := ((pinsDistinct_iff c).1 h).1.of_append_left
  simpa [unitPins, and_assoc] using nodup

theorem lt_npins_of_mem_unitPins {c : Config} (h : c.pinsDistinct = true) {p : Nat} (hp : p ∈ unitPins c) : p < c.npins :=
  ((pinsDistinct_iff c).1 h).2 p (List.mem_append_left _ hp)

theorem isButtonPin_iff (c : Config) (p : Nat) : isButtonPin c p = true ↔ c.btnMode = .pins ∧ p ∈ c.pinBtn := by
  cases hm : c.btnMode <;> simp [isButtonPin, hm]

/-! ### One pin after reset (R36) -/

/-- A sensor's pin, TEMP, ECHO or FLOW, is neither of the outputs. -/
theorem resetPin_sensor {c : Config} (h : c.pinsDistinct = true) {p : Nat}
    (hp : p = c.pinTemp ∨ p = c.pinEcho ∨ p = c.pinFlow) :
    (resetPin c p).dir = .input ∧ (resetPin c p).edgeMode = .both := by
  obtain ⟨temp_trig, -, -, temp_pwm, trig_echo, trig_flow, -, -, echo_pwm, flow_pwm⟩ := unitPins_ne h
  have notOutput : p ≠ c.pinTrig ∧ p ≠ c.pinPwm := by
    rcases hp with rfl | rfl | rfl
    · exact ⟨temp_trig, temp_pwm⟩
    · exact ⟨trig_echo.symm, echo_pwm⟩
    · exact ⟨trig_flow.symm, flow_pwm⟩
  exact ⟨by simp [resetPin, notOutput], if_pos (by simpa [or_assoc] using hp)⟩

/-- TRIG is an output without edge events: it is no sensor's pin. -/
theorem resetPin_trig {c : Config} (h : c.pinsDistinct = true) :
    (resetPin c c.pinTrig).dir = .output ∧ (resetPin c c.pinTrig).edgeMode = .off := by
  obtain ⟨temp_trig, -, -, -, trig_echo, trig_flow, -⟩ := unitPins_ne h
  simp [resetPin, temp_trig.symm, trig_echo, trig_flow]

/-- Each unit owns its pins: the owner's table asks for TEMP, ECHO, TRIG, FLOW and PWM in this order. -/
theorem pinOwner_unitPins {c : Config} (h : c.pinsDistinct = true) :
    pinOwner c c.pinTemp = .temp ∧ pinOwner c c.pinEcho = .range ∧ pinOwner c c.pinFlow = .flow ∧
      pinOwner c c.pinTrig = .range ∧ pinOwner c c.pinPwm = .pwm := by
  obtain ⟨temp_trig, temp_echo, temp_flow, temp_pwm, trig_echo, trig_flow, trig_pwm, echo_flow, echo_pwm, flow_pwm⟩ :=
    unitPins_ne h
  refine ⟨?_, ?_, ?_, ?_, ?_⟩
  · simp [pinOwner]
  · simp [pinOwner, temp_echo.symm]
  · simp [pinOwner, temp_flow.symm, echo_flow.symm, trig_flow.symm]
  · simp [pinOwner, temp_trig.symm, trig_echo]
  · simp [pinOwner, temp_pwm.symm, echo_pwm.symm, trig_pwm.symm, flow_pwm.symm]

/-- A pin that no unit owns, or a button's. -/
theorem resetPin_other {c : Config} {p : Nat} (hp : p ∉ unitPins c) :
    (resetPin c p).dir = .input ∧ (resetPin c p).edgeMode = .off ∧
      (resetPin c p).owner = if c.btnMode = .pins ∧ p ∈ c.pinBtn then .btn else .host := by
  simp only [unitPins, List.mem_cons, List.not_mem_nil, or_false, not_or] at hp
  simp [resetPin, pinOwner, isButtonPin_iff, hp]

/-! ### The whole state after reset -/

section
variable (c : Config) (ack : Bool) (answer : Option (Byte × Byte))

theorem pin_resetAs {p : Nat} (hp : p < c.npins) : (State.resetAs c ack answer).pin p = resetPin c p := by
  simp [State.pin, State.resetAs, resetPins, hp]

theorem length_pins_resetAs : (State.resetAs c ack answer).pins.length = c.npins := by
  simp [State.resetAs, resetPins]

/-- The actions that R702 schedules: the buttons' poll, and in BACKGROUND mode the sampler's first measurement. -/
theorem timers_get_resetAs (a : Action) (due : Nat) : (State.resetAs c ack answer).timers.get a = some due ↔
    (a = .btnPoll ∧ due = c.btnPollUs) ∨ (a = .rangeSample ∧ c.rangeMode = .background ∧ due = 0) := by
  cases a with
  | rangeSample => cases hm : c.rangeMode <;> simp [State.resetAs, Timers.get, hm, @eq_comm _ 0 due]
  | btnPoll => simp [State.resetAs, Timers.get, @eq_comm _ c.btnPollUs due]
  | _ => simp [State.resetAs, Timers.get, noTimers]

theorem lastChange_resetAs (i : Nat) : (State.resetAs c ack answer).btn.lastChange.getD i 0 = 0 :=
  List.getElem?_getD_replicate_default_eq ..

end

/-- The default time step, 1.0 s, has the period of R702. -/
theorem periodOf_one64 : periodOf one64 = 1000000 := by decide +kernel

/-- Settles O57: reset takes a well-formed configuration unrounded; its pins are read off pin by pin, since the pins that
parameters name are distinct and exist. -/
theorem resetValues : Obligations.ResetValues := by
  intro c ack answer s hc hs
  rw [resetWith_of_wellFormed hc] at hs
  subst hs
  have distinct := pinsDistinct_of_wellFormed hc
  have pin_eq {p : Nat} (hp : p ∈ unitPins c) : (State.resetAs c ack answer).pin p = resetPin c p :=
    pin_resetAs c ack answer (lt_npins_of_mem_unitPins distinct hp)
  have temp := pin_eq (p := c.pinTemp) (by simp [unitPins])
  have trig := pin_eq (p := c.pinTrig) (by simp [unitPins])
  have echo := pin_eq (p := c.pinEcho) (by simp [unitPins])
  have flow := pin_eq (p := c.pinFlow) (by simp [unitPins])
  have pwm := pin_eq (p := c.pinPwm) (by simp [unitPins])
  obtain ⟨ownerTemp, ownerEcho, ownerFlow, ownerTrig, ownerPwm⟩ := pinOwner_unitPins distinct
  obtain ⟨trigDir, trigEdge⟩ := resetPin_trig distinct
  rw [temp, trig, echo, flow, pwm]
  -- Each `rfl` is a field that reset writes as the statement gives it.
  refine ⟨rfl, rfl, timers_get_resetAs c ack answer, length_pins_resetAs c ack answer, ?latches, ?sensors,
    ownerTemp, ownerEcho, ownerFlow, trigDir, trigEdge, ownerTrig, ?pwmDir, ownerPwm, ?others,
    rfl, rfl, rfl, rfl, rfl, rfl, rfl, rfl, rfl, rfl, rfl, rfl, rfl, rfl, rfl, rfl, rfl, rfl, rfl,
    lastChange_resetAs c ack answer, rfl, rfl, rfl, rfl, rfl, ?period, rfl, rfl, rfl, rfl, rfl, rfl, rfl⟩
  case latches =>
    intro p hp
    rw [pin_resetAs c ack answer hp]
    exact ⟨rfl, rfl, fun _ => rfl⟩
  case sensors =>
    intro p hp
    have mem : p ∈ unitPins c := by rcases hp with rfl | rfl | rfl <;> simp [unitPins]
    rw [pin_eq mem]
    exact resetPin_sensor distinct hp
  case pwmDir => simp [resetPin]
  case others =>
    intro p hp notUnit
    rw [pin_resetAs c ack answer hp]
    exact resetPin_other notUnit
  case period =>
    intro isDefault
    exact congrArg Int.toNat ((congrArg periodOf isDefault).trans periodOf_one64)

end Sys2Proof.Machine

/-! SUPPORT. The pins and the stopwatch (R201, R220 to R227, R233): the operand checks of the pin commands, what the
write-class and the observing commands answer, the equation of GPIO.PULSE, and the statements about them. -/

namespace Sys2Proof.Machine

/-! ### The checks of a pin operand (R201) -/

theorem State.noSuchPin_of_lt {s : State} {pin : Byte} (h : pin.toNat < s.cfg.npins) : s.noSuchPin pin = false :=
  decide_eq_false (Nat.not_le.2 h)

theorem State.pinCheck_of_outOfRange {s : State} {pin : Byte} (h : s.cfg.npins ≤ pin.toNat) :
    s.pinCheck pin = some .badarg := if_pos (decide_eq_true h)

theorem State.pinCheck_of_owned {s : State} {pin : Byte} (h : pin.toNat < s.cfg.npins)
    (owned : (s.pin pin.toNat).owner ≠ .host) : s.pinCheck pin = some .busy := by
  simp [State.pinCheck, State.noSuchPin_of_lt h, owned]

theorem notBit_of_le_one {b : Byte} (h : b.toNat ≤ 1) : notBit b = false := decide_eq_false (Nat.not_lt.2 h)

/-- The check of GPIO.PULSE on its level and its width (R223). -/
theorem pulseOperands_refused_iff (c : Config) (level : Byte) (width : U32) :
    (notBit level || width = 0 || c.pulseMaxUs < width.toNat) = true ↔
      1 < level.toNat ∨ width = 0 ∨ c.pulseMaxUs < width.toNat := by
  simp only [notBit, Bool.or_eq_true, decide_eq_true_eq, or_assoc]

theorem pulseOperands_accepted {c : Config} {level : Byte} {width : U32}
    (bit : level.toNat ≤ 1) (wide : width ≠ 0) (short : width.toNat ≤ c.pulseMaxUs) :
    ¬(notBit level || width = 0 || c.pulseMaxUs < width.toNat) = true := by
  simp only [pulseOperands_refused_iff, not_or, not_lt]
  exact ⟨bit, wide, short⟩

/-! ### Write-class commands (R201) -/

/-- A write-class command on `pin` whose other operands, `b` and the width `w`, are legal in the configuration `c`. -/
def WriteClass (c : Config) (pin b : Byte) (w : U32) (i : Instr) : Prop :=
  (i = .gpioSetdir pin b ∧ b.toNat ≤ 1) ∨ (i = .gpioWrite pin b ∧ b.toNat ≤ 1) ∨
    (i = .gpioPulse pin b w ∧ b.toNat ≤ 1 ∧ w ≠ 0 ∧ w.toNat ≤ c.pulseMaxUs) ∨ (i = .gpioSetedge pin b ∧ b.toNat ≤ 3)

/-- Such a command comes to the check of its pin, whose refusal is its answer. -/
theorem exec_writeClass_refused {s : State} {pin b : Byte} {w : U32} {i : Instr} {st : Status}
    (write : WriteClass s.cfg pin b w i) (check : s.pinCheck pin = some st) : exec i s = .next (s.reply st []) := by
  rcases write with ⟨rfl, bit⟩ | ⟨rfl, bit⟩ | ⟨rfl, bit, wide, short⟩ | ⟨rfl, mode⟩
  · simp [exec, execGpioSetdir, notBit_of_le_one bit, check, State.raise]
  · simp [exec, execGpioWrite, notBit_of_le_one bit, check, State.raise]
  · simp only [exec, execGpioPulse, if_neg (pulseOperands_accepted bit wide short), check, State.raise]
  · simp [exec, execGpioSetedge, Nat.not_lt.2 mode, check, State.raise]

/-! ### Observing commands (R201) -/

/-- From `s` to `t` no lone response BUSY was added. -/
def NeverBusy (s t : State) : Prop := ∀ r, t.responses = s.responses ++ [r] → r.status ≠ .busy

theorem NeverBusy.of_reply {s t : State} {st : Status} {rs : List Val}
    (added : t.responses = s.responses ++ [{ status := st, results := rs }]) (h : st ≠ .busy) : NeverBusy s t := by
  intro r hr
  obtain rfl : _ = r := by simpa using added.symm.trans hr
  exact h

theorem NeverBusy.of_silent {s t : State} (same : t.responses = s.responses) : NeverBusy s t := by
  intro r hr
  simp [same] at hr

section
variable {s : State} {pin : Byte} (h : pin.toNat < s.cfg.npins)
include h

theorem exec_gpioRead_of_lt :
    exec (.gpioRead pin) s = .next ((s.readPin pin.toNat).2.reply .ok [.bool (s.readPin pin.toNat).1]) := by
  simp [exec, execGpioRead, State.noSuchPin_of_lt h]

/-- On an existing pin GPIO.WAITEDGE answers BADARG at once, or holds the port. -/
theorem exec_gpioWaitedge_of_lt (timeout : U32) :
    exec (.gpioWaitedge pin timeout) s = .next (s.reply .badarg [.u8 0, .u32 0]) ∨
      exec (.gpioWaitedge pin timeout) s = .next (s.holdUntil (.waitEdge pin timeout) (s.now + timeout.toNat)) := by
  by_cases refused : (s.pin pin.toNat).dir ≠ .input ∨ (s.pin pin.toNat).edgeMode = .off
  · left; simp [exec, execGpioWaitedge, State.noSuchPin_of_lt h, refused, State.raise]
  · right; simp [exec, execGpioWaitedge, State.noSuchPin_of_lt h, refused]

theorem exec_gpioSubscribe_of_lt : exec (.gpioSubscribe pin) s =
    .next ((s.setPin pin.toNat { s.pin pin.toNat with hostSub := true }).reply .ok []) := by
  simp [exec, execGpioSubscribe, State.noSuchPin_of_lt h]

theorem exec_gpioUnsubscribe_of_lt : exec (.gpioUnsubscribe pin) s =
    .next ((s.setPin pin.toNat { s.pin pin.toNat with hostSub := false }).reply .ok []) := by
  simp [exec, execGpioUnsubscribe, State.noSuchPin_of_lt h]

/-- An observing command runs on an existing pin, whatever its owner. -/
theorem exec_observing_neverBusy (w : U32) {i : Instr}
    (observing : i ∈ [Instr.gpioRead pin, .gpioWaitedge pin w, .gpioSubscribe pin, .gpioUnsubscribe pin]) :
    ∃ t, exec i s = .next t ∧ NeverBusy s t := by
  simp only [List.mem_cons, List.not_mem_nil, or_false] at observing
  rcases observing with rfl | rfl | rfl | rfl
  · exact ⟨_, exec_gpioRead_of_lt h, .of_reply (congrArg (· ++ _) (s.readPin_responses _)) (by decide)⟩
  · rcases exec_gpioWaitedge_of_lt h w with refused | held
    · exact ⟨_, refused, .of_reply rfl (by decide)⟩
    · exact ⟨_, held, .of_silent rfl⟩
  · exact ⟨_, exec_gpioSubscribe_of_lt h, .of_reply rfl (by decide)⟩
  · exact ⟨_, exec_gpioUnsubscribe_of_lt h, .of_reply rfl (by decide)⟩

end

/-- Settles O10: the owner is asked by the one check that the write-class commands share; no observing command asks it. -/
theorem pinOwnership : Obligations.PinOwnership := by
  intro s pin b w
  refine ⟨fun i write => ⟨fun outOfRange => ?_, fun inRange owned => ?_⟩, fun inRange i observing => ?_⟩
  · exact exec_writeClass_refused write (State.pinCheck_of_outOfRange outOfRange)
  · exact exec_writeClass_refused write (State.pinCheck_of_owned inRange owned)
  · exact exec_observing_neverBusy inRange w observing

/-! ### The stopwatch (R233) -/

/-- Natural-number times in order are subtracted modulo 2^32 as their timestamps are. -/
theorem ts32_sub {a b : Nat} (h : b ≤ a) : ts32 a - ts32 b = BitVec.ofNat 32 (a - b) := by
  have sum : BitVec.ofNat 32 (a - b) + ts32 b = ts32 a := by
    rw [ts32, ts32, ← BitVec.ofNat_add, Nat.sub_add_cancel h]
  rw [← sum, BitVec.add_sub_cancel]

theorem State.elapsed_of_clockLegal {s : State} (h : s.ClockLegal) : s.elapsed =
    BitVec.ofNat 32 (if s.clk.swRunning then s.now - s.clk.swStart else s.clk.swStop - s.clk.swStart) := by
  obtain ⟨started, stopped, -⟩ := h
  unfold State.elapsed
  cases running : s.clk.swRunning with
  | true => exact ts32_sub started
  | false => exact ts32_sub (stopped running)

/-- Settles O17: each of the two readings is a difference of times in order. -/
theorem stopwatchElapsed : Obligations.StopwatchElapsed := by
  intro s legal
  refine ⟨rfl, ?_⟩
  rw [← State.elapsed_of_clockLegal legal]
  rfl

/-! ### GPIO.PULSE (R223) -/

theorem exec_gpioPulse_illFormed {s : State} (pin : Byte) {level : Byte} {width : U32}
    (h : 1 < level.toNat ∨ width = 0 ∨ s.cfg.pulseMaxUs < width.toNat) :
    exec (.gpioPulse pin level width) s = .next (s.reply .badarg []) := by
  simp only [exec, execGpioPulse, if_pos ((pulseOperands_refused_iff ..).2 h), State.raise]

/-- On a host pin a legal pulse asks for an output, drives its level and holds the port until its end. -/
theorem exec_gpioPulse_hostPin {s : State} {pin level : Byte} {width : U32}
    (bit : level.toNat ≤ 1) (wide : width ≠ 0) (short : width.toNat ≤ s.cfg.pulseMaxUs) (check : s.pinCheck pin = none) :
    exec (.gpioPulse pin level width) s = .next (
      if (s.pin pin.toNat).dir ≠ .output then s.reply .badarg []
      else (s.pinOut pin.toNat (bitOf level)).holdUntil (.pulse pin level width) (s.now + width.toNat)) := by
  simp only [exec, execGpioPulse, if_neg (pulseOperands_accepted bit wide short), check, State.raise]

/-- The deadline of a pulse drives the opposite level and completes the command. -/
theorem fire_hostDeadline_of_pulse {s : State} {pin level : Byte} {width : U32} {tAcc : Nat} {tDl : Option Nat}
    (held : s.port = .held { op := .pulse pin level width, tAcc := tAcc, tDl := tDl }) :
    fire .hostDeadline s = .next ((s.pinOut pin.toNat (!bitOf level)).complete .ok []) := by
  simp only [fire, deadline, held]

/-- Settles O13: the checks one after the other, that of the pin shared with the other write-class commands (R201). -/
theorem gpioPulse : Obligations.GpioPulse := by
  intro s pin level width
  refine ⟨rfl, ?answer, fun tAcc tDl held => fire_hostDeadline_of_pulse held⟩
  split
  case isTrue illFormed => exact exec_gpioPulse_illFormed pin illFormed
  case isFalse legal =>
    obtain ⟨bit, wide, short⟩ : level.toNat ≤ 1 ∧ width ≠ 0 ∧ width.toNat ≤ s.cfg.pulseMaxUs := by
      simpa only [not_or, not_lt] using legal
    have write : WriteClass s.cfg pin level width (.gpioPulse pin level width) :=
      .inr (.inr (.inl ⟨rfl, bit, wide, short⟩))
    split
    case isTrue outOfRange => exact exec_writeClass_refused write (State.pinCheck_of_outOfRange outOfRange)
    case isFalse inRange =>
      split
      case isTrue owned => exact exec_writeClass_refused write (State.pinCheck_of_owned (Nat.not_le.1 inRange) owned)
      case isFalse host =>
        have check : s.pinCheck pin = none := (s.pinCheck_none pin).2 ⟨Nat.not_le.1 inRange, not_not.1 host⟩
        exact exec_gpioPulse_hostPin bit wide short check

end Sys2Proof.Machine

/-! SUPPORT. The Config word of the ADC (R152, R251): its value as a number, field by field, and the statement about it. -/

namespace Sys2Proof.Machine

/-- The spec writes the MUX code as the sum `4 + ch`, the model as a 1 in front of the channel's two bits: the sum carries
nothing from one field to the other. -/
theorem toNat_muxCode (ch : BitVec 2) : (1#1 ++ ch).toNat = 4 + ch.toNat :=
  calc (1#1 ++ ch).toNat
    _ = 1 <<< 2 ||| ch.toNat := BitVec.toNat_append 1#1 ch
    _ = 1 <<< 2 + ch.toNat := (Nat.shiftLeft_add_eq_or_of_lt ch.isLt 1).symm

/-- Each field is shifted by the widths of the fields after it, which add up to its position in R251. -/
theorem toNat_adcConfigWord (c : Config) (ch : BitVec 2) : (adcConfigWord c ch).toNat =
    (1 <<< 15) ||| ((4 + ch.toNat) <<< 12) ||| (c.adcPga.toNat <<< 9) ||| (1 <<< 8) ||| (c.adcDr.toNat <<< 5) |||
      0b00011 := by
  have fields : (adcConfigWord c ch).toNat =
      ((((1 <<< 3 ||| (4 + ch.toNat)) <<< 3 ||| c.adcPga.toNat) <<< 1 ||| 1) <<< 3 ||| c.adcDr.toNat) <<< 5 |||
        0b00011 := by
    rw [adcConfigWord, BitVec.toNat_append, BitVec.toNat_append, BitVec.toNat_append, BitVec.toNat_append,
      BitVec.toNat_append, toNat_muxCode]
    rfl
  rw [fields]
  simp only [Nat.shiftLeft_or_distrib, ← Nat.shiftLeft_add, Nat.reduceAdd]

/-- The four words of the default gain and rate. -/
theorem adcConfigWord_defaults {c : Config} (pga : c.adcPga = 0b001) (dr : c.adcDr = 0b100) :
    adcConfigWord c 0 = 0xC383 ∧ adcConfigWord c 1 = 0xD383 ∧ adcConfigWord c 2 = 0xE383 ∧ adcConfigWord c 3 = 0xF383 := by
  simp only [adcConfigWord, pga, dr]
  decide

end Sys2Proof.Machine

/-! In a namespace of its own: `Sys2Proof.Machine.adcConfigWord` is the model's function. -/

namespace Sys2Proof.Laws

/-- Settles O21: the formula field by field, and the four words from the fields' default values. -/
theorem adcConfigWord : Obligations.AdcConfigWord := by
  intro c ch
  exact ⟨Machine.toNat_adcConfigWord c ch, Machine.adcConfigWord_defaults⟩

end Sys2Proof.Laws

/-! SUPPORT. The buttons (R390 to R393): which buttons a new mask changes, what applying it writes, the mask that the
pins show, what the LADDER poll does in each case, and the statements about them. -/

namespace Sys2Proof.Machine

/-! ### Applying a mask (R393) -/

/-- The first `n` buttons' indices, in ascending order, where the new mask differs from the present one. -/
def State.changedButtons (s : State) (newMask : U32) (n : Nat) : List Nat :=
  (List.range n).filter fun i => decide (newMask.getLsbD i ≠ s.btn.mask.getLsbD i)

/-- The record of button `i`'s change. -/
def State.buttonRecord (s : State) (newMask : U32) (i : Nat) : Ntf :=
  { kind := .button, a := BitVec.ofNat 32 i, b := if newMask.getLsbD i then 1 else 0
    c := ts32 s.now - ts32 (s.btn.lastChange.getD i 0) }

/-- The last changes once the buttons of `l` have changed at `now`. -/
def stampChanges (now : Nat) (l changes : List Nat) : List Nat := l.foldl (fun cs i => cs.set i now) changes

theorem State.mem_changedButtons {s : State} {m : U32} {n i : Nat} :
    i ∈ s.changedButtons m n ↔ i < n ∧ m.getLsbD i ≠ s.btn.mask.getLsbD i := by simp [State.changedButtons]

theorem State.changedButtons_succ (s : State) (m : U32) (n : Nat) : s.changedButtons m (n + 1) =
    s.changedButtons m n ++ if m.getLsbD n = s.btn.mask.getLsbD n then [] else [n] := by
  by_cases same : m.getLsbD n = s.btn.mask.getLsbD n <;> simp [State.changedButtons, List.range_succ, same]

@[simp] theorem length_stampChanges (now : Nat) (l changes : List Nat) :
    (stampChanges now l changes).length = changes.length := by
  induction l generalizing changes with
  | nil => rfl
  | cons j l ih => exact (ih _).trans List.length_set

theorem stampChanges_append_single (now : Nat) (l changes : List Nat) (i : Nat) :
    stampChanges now (l ++ [i]) changes = (stampChanges now l changes).set i now := by simp [stampChanges]

theorem getD_stampChanges_of_notMem {now i : Nat} {l : List Nat} (h : i ∉ l) (changes : List Nat) :
    (stampChanges now l changes).getD i 0 = changes.getD i 0 := by
  induction l generalizing changes with
  | nil => rfl
  | cons j l ih =>
    obtain ⟨hj, hl⟩ : i ≠ j ∧ i ∉ l := by simpa using h
    exact (ih hl _).trans (by simp [List.getD, List.getElem?_set_ne hj.symm])

theorem getD_stampChanges_of_mem {now i : Nat} {l : List Nat} (h : i ∈ l) {changes : List Nat}
    (hi : i < changes.length) : (stampChanges now l changes).getD i 0 = now := by
  induction l generalizing changes with
  | nil => cases h
  | cons j l ih =>
    by_cases hl : i ∈ l
    · exact ih hl (by simpa using hi)
    · obtain rfl : i = j := by simpa [hl] using h
      exact (getD_stampChanges_of_notMem hl _).trans (by simp [List.getD, hi])

theorem State.applyButton_of_eq {s : State} {m : U32} {i : Nat} (h : m.getLsbD i = s.btn.mask.getLsbD i) :
    s.applyButton m i = s := if_pos h

theorem State.applyButton_of_ne {s : State} {m : U32} {i : Nat} (h : m.getLsbD i ≠ s.btn.mask.getLsbD i) :
    s.applyButton m i = { s with
      btn := { s.btn with lastChange := s.btn.lastChange.set i s.now }
      ntf := s.ntf.emit s.cfg.ntfDepth (s.buttonRecord m i) } := if_neg h

/-- `s` after the first `n` buttons of `apply`, in closed form: every record is one of `s`. -/
def State.afterButtons (s : State) (newMask : U32) (n : Nat) : State :=
  { s with
    btn := { s.btn with lastChange := stampChanges s.now (s.changedButtons newMask n) s.btn.lastChange }
    ntf := (s.changedButtons newMask n).foldl (fun u i => u.emit s.cfg.ntfDepth (s.buttonRecord newMask i)) s.ntf }

/-- No earlier button has written the last change of button `n`. -/
theorem State.buttonRecord_afterButtons (s : State) (m : U32) (n : Nat) :
    (s.afterButtons m n).buttonRecord m n = s.buttonRecord m n := by
  have fresh : n ∉ s.changedButtons m n := fun h => absurd (State.mem_changedButtons.1 h).1 (Nat.lt_irrefl n)
  simp only [State.buttonRecord, State.afterButtons, getD_stampChanges_of_notMem fresh]

theorem State.applyButton_afterButtons (s : State) (m : U32) (n : Nat) :
    (s.afterButtons m n).applyButton m n = s.afterButtons m (n + 1) := by
  by_cases same : m.getLsbD n = s.btn.mask.getLsbD n
  · refine (State.applyButton_of_eq (s := s.afterButtons m n) same).trans ?_
    simp [State.afterButtons, State.changedButtons_succ, same]
  · refine (State.applyButton_of_ne (s := s.afterButtons m n) same).trans ?_
    rw [State.buttonRecord_afterButtons]
    simp [State.afterButtons, State.changedButtons_succ, same, stampChanges_append_single]

theorem State.applyButtons_eq (s : State) (m : U32) (n : Nat) :
    (List.range n).foldl (fun s i => s.applyButton m i) s = s.afterButtons m n := by
  induction n with
  | zero => rfl
  | succ n ih => rw [List.range_succ, List.foldl_append, ih, ← State.applyButton_afterButtons]; rfl

theorem State.applyMask_eq (s : State) (m : U32) :
    s.applyMask m = { s.afterButtons m s.cfg.nbtn with
      btn := { (s.afterButtons m s.cfg.nbtn).btn with mask := m } } := by
  rw [State.applyMask, State.applyButtons_eq]

/-- Settles O39: the buttons in turn give the stamps and the records of the changed ones. -/
theorem buttonsApply : Obligations.ButtonsApply := by
  intro s m full
  refine ⟨stampChanges s.now (s.changedButtons m s.cfg.nbtn) s.btn.lastChange, ?_, fun i hi => ?_, ?_⟩
  · rw [length_stampChanges, full]
  · split
    case isTrue same => exact getD_stampChanges_of_notMem (fun h => (State.mem_changedButtons.1 h).2 same) _
    case isFalse differ => exact getD_stampChanges_of_mem (State.mem_changedButtons.2 ⟨hi, differ⟩) (full ▸ hi)
  · exact s.applyMask_eq m

/-! ### The mask that the pins show (R391) -/

theorem nbtn_le_of_wellFormed {c : Config} (h : c.wellFormed = true) : c.nbtn ≤ 32 := by
  obtain ⟨-, -, -, -, -, -, -, sizes, -, -⟩ := (wellFormed_iff c).1 h
  simp only [Config.sizesOk, Bool.and_eq_true, decide_eq_true_eq] at sizes
  obtain ⟨⟨⟨-, atMost⟩, -⟩, -⟩ := sizes
  exact atMost

/-- The sum of `2 ^ i` over the `i < n` whose level is low. -/
def lowSum (level : Nat → Bool) (n : Nat) : Nat :=
  (List.range n).foldl (fun m i => if level i then m else m + 2 ^ i) 0

theorem lowSum_succ (level : Nat → Bool) (n : Nat) :
    lowSum level (n + 1) = if level n then lowSum level n else 2 ^ n + lowSum level n := by
  simp [lowSum, List.range_succ, Nat.add_comm]

theorem lowSum_lt (level : Nat → Bool) (n : Nat) : lowSum level n < 2 ^ n := by
  induction n with
  | zero => exact Nat.one_pos
  | succ n ih =>
    rw [lowSum_succ]
    split <;> omega

/-- Each power of two is a bit of its own, since the sum before it is smaller. -/
theorem testBit_lowSum (level : Nat → Bool) (n i : Nat) :
    (lowSum level n).testBit i = (decide (i < n) && !level i) := by
  induction n with
  | zero => simp [lowSum]
  | succ n ih =>
    have bitwise : 2 ^ n + lowSum level n = 2 ^ n ||| lowSum level n := by
      simpa using Nat.two_pow_add_eq_or_of_lt (lowSum_lt level n) 1
    rw [lowSum_succ, bitwise, apply_ite (Nat.testBit · i), Nat.testBit_or, Nat.testBit_two_pow, ih]
    by_cases here : n = i
    · subst here; cases level n <;> simp
    · have earlier : i < n + 1 ↔ i < n := by omega
      simp [here, earlier]

theorem State.pinMask_eq (s : State) :
    s.pinMask = BitVec.ofNat 32 (lowSum (fun i => (s.pin (s.cfg.pinBtn.getD i 0)).inLevel) s.cfg.nbtn) := rfl

theorem State.getLsbD_pinMask {s : State} (h : s.cfg.nbtn ≤ 32) (i : Nat) :
    s.pinMask.getLsbD i = (decide (i < s.cfg.nbtn) && !(s.pin (s.cfg.pinBtn.getD i 0)).inLevel) := by
  rw [State.pinMask_eq, BitVec.getLsbD_ofNat, testBit_lowSum]
  by_cases button : i < s.cfg.nbtn
  · simp [button, button.trans_le h]
  · simp [button]

/-! ### The poll in LADDER mode (R255, R258, R390, R397) -/

theorem State.startNext_nil {s : State} (empty : s.adc.queue = []) : s.startNext [] = s := by
  rw [State.startNext, ← empty]

section
variable {s : State}

theorem State.ladderPoll_of_polling (h : s.btn.polling = true) : s.ladderPoll = s := if_pos h

variable (ready : s.btn.polling = false)
include ready

/-- The end of its request leaves a button unit that has none in flight, and the mask applied. -/
theorem State.ladderDone_of_ready (v : Real64) :
    ({ s with btn := { s.btn with polling := true } } : State).ladderDone v =
      s.applyMask (ladder s.cfg.ladderTable v) := by
  simp only [State.ladderDone, ← ready]

theorem State.ladderPoll_of_absent (absent : s.adc.presence = .absent) :
    s.ladderPoll = s.applyMask (ladder s.cfg.ladderTable 0) := by
  rw [← State.ladderDone_of_ready ready]
  simp [State.ladderPoll, ready, State.adcAbsent, absent, zero64]

variable (present : s.adc.presence ≠ .absent)
include present

theorem State.ladderPoll_of_present :
    s.ladderPoll = State.request { s with btn := { s.btn with polling := true } } s.cfg.btnAdcCh .btn := by
  simp [State.ladderPoll, ready, State.adcAbsent, present]

theorem State.ladderPoll_of_converting {ch : BitVec 2} {req : AdcReq} {t0 : Nat}
    (flight : s.adc.phase = .converting ch req t0) :
    s.ladderPoll = { s with
      btn := { s.btn with polling := true }
      adc := { s.adc with queue := s.adc.queue ++ [(s.cfg.btnAdcCh, .btn)] } } := by
  simp only [State.ladderPoll_of_present ready present, State.request, flight]

variable (idle : s.adc.phase = .idle) (empty : s.adc.queue = [])
include idle empty

theorem State.ladderPoll_of_ack (ack : s.outside.nextAck.1 = true) :
    s.ladderPoll = State.schedule { s with
      btn := { s.btn with polling := true }
      adc := { s.adc with phase := .converting s.cfg.btnAdcCh .btn s.now, queue := [] }
      outside := s.outside.nextAck.2
      bus := s.bus ++ [.write s.cfg.adcAddr (ptrConfig :: bytes16 (adcConfigWord s.cfg s.cfg.btnAdcCh)) true] } .adcPoll
      (s.now + s.cfg.adcPollUs) := by
  simp only [State.ladderPoll_of_present ready present, State.request, idle, empty, State.startNext_cons, ack, if_true]

/-- The request that could not start ends in the same step, and no other waits. -/
theorem State.ladderPoll_of_nack (nack : s.outside.nextAck.1 = false) :
    s.ladderPoll = State.applyMask { s with
      adc := { s.adc with phase := .idle, queue := [] }
      outside := s.outside.nextAck.2
      bus := s.bus ++ [.write s.cfg.adcAddr (ptrConfig :: bytes16 (adcConfigWord s.cfg s.cfg.btnAdcCh)) false] }
      (ladder s.cfg.ladderTable 0) := by
  refine .trans ?_ (State.ladderDone_of_ready (by exact ready) 0)
  simp only [State.ladderPoll_of_present ready present, State.request, idle, empty, State.startNext_cons, nack,
    Bool.false_eq_true, if_false, State.deliver]
  exact State.startNext_nil (by rw [State.ladderDone_frame])

end

/-- Settles O41: in PINS mode the mask is read off bit by bit; in LADDER mode each case of the poll is a lemma above. -/
theorem buttonPoll : Obligations.ButtonPoll := by
  intro s
  refine ⟨fun legal pins => ⟨s.pinMask, State.getLsbD_pinMask (nbtn_le_of_wellFormed legal), ?pins⟩,
    fun mode sound => ?ladder⟩
  case pins => simp [fire, State.btnPoll, pins, State.schedule, Timers.set]
  case ladder =>
    intro s'
    have poll : fire .btnPoll s = .next s'.ladderPoll := by simp only [fire, State.btnPoll, mode]; rfl
    rw [poll]
    congr 1
    split
    case isTrue busy => exact State.ladderPoll_of_polling busy
    case isFalse notBusy =>
      have ready : s'.btn.polling = false := Bool.not_eq_true _ ▸ notBusy
      split
      case isTrue absent => exact State.ladderPoll_of_absent ready absent
      case isFalse present =>
        split
        case h_1 flight => exact State.ladderPoll_of_converting ready present flight
        case h_2 idle =>
          obtain ⟨-, empty⟩ : s.timers.adcPoll = none ∧ s.adc.queue = [] := by
            simpa only [State.AdcSound, idle] using sound
          by_cases ack : s.outside.nextAck.1 = true
          · exact (State.ladderPoll_of_ack ready present idle empty ack).trans (if_pos ack).symm
          · have nack : s'.outside.nextAck.1 = false := Bool.not_eq_true _ ▸ ack
            exact (State.ladderPoll_of_nack ready present idle empty nack).trans (if_neg ack).symm

end Sys2Proof.Machine

/-! SUPPORT. The regulator (R431 to R437): a clamp between 0 and 1 leaves a clamped fraction alone, so that the PWM stores
the very drive that a tick publishes; the stop procedure and the three ways a tick can end as equations of the whole state,
and the statements about them. -/

namespace Sys2Proof.Machine

/-! ### Duty fractions (R281) -/

/-- `clamp` answers one of its arguments. -/
theorem clamp_eq (x lo hi : Real64) : clamp x lo hi = x ∨ clamp x lo hi = lo ∨ clamp x lo hi = hi := by
  unfold clamp
  rcases rmin_eq (rmax x lo) hi with low | high
  · rw [low]
    exact (rmax_eq x lo).imp_right .inl
  · exact .inr (.inr high)

theorem clamp01_zero64 : clamp zero64 zero64 one64 = zero64 := by decide

theorem clamp01_one64 : clamp one64 zero64 one64 = one64 := by decide

/-- Clamping a duty fraction again changes nothing: of a NaN, an infinity and the zeros too. -/
theorem clamp01_clamp01 (x : Real64) : clamp (clamp x zero64 one64) zero64 one64 = clamp x zero64 one64 := by
  rcases clamp_eq x zero64 one64 with same | low | high
  · rw [same, same]
  · rw [low, clamp01_zero64]
  · rw [high, clamp01_one64]

theorem toFormat_zero64 (f : RealFmt) : toFormat f zero64 = zero64 := of_decide_eq_true (inFormat_zero64 f)

theorem onTicks_zero64 (r : U32) : onTicks zero64 r = 0 := by
  rw [onTicks, realRat_zero64, zero_mul]
  decide

/-! ### The stop procedure (R436) and the abnormal exit (R437) -/

theorem State.regRunning_iff (s : State) : s.regRunning = true ↔ s.reg.state = .running := decide_eq_true_iff

theorem State.stopProcedure_eq (s : State) : s.stopProcedure = { s with
    timers := { s.timers with regTick := none }
    reg := { s.reg with state := .stopped, latestDrive := 0 }
    pwm := { s.pwm with frac := 0, value := 0 } } := by
  have pwm : (s.stopProcedure).pwm = { s.pwm with frac := zero64, value := 0 } := by
    rw [State.stopProcedure_pwm, clamp01_zero64, toFormat_zero64, onTicks_zero64]
  calc s.stopProcedure
    _ = { s with
        timers := (s.stopProcedure).timers
        reg := (s.stopProcedure).reg
        pwm := (s.stopProcedure).pwm } := rfl
    _ = _ := by rw [pwm]; rfl

theorem State.abnormalExit_eq (s : State) (temp : Real64) : s.abnormalExit temp = { s with
    pwm := { s.pwm with frac := 0, value := 0 }
    reg := { s.reg with state := .stopped, fault := true, latestTemp := temp, latestDrive := 0 }
    timers := { s.timers with regTick := none } } := by
  rw [State.abnormalExit, State.stopProcedure_eq]

/-! ### Steps 3 to 6 of a tick (R431) -/

theorem State.gated_zero64 (s : State) : s.gated zero64 = zero64 := by
  rw [State.gated, ite_self, clamp01_zero64]

/-- The gate and the clamp keep a drive in the format: 0 and 1 are values of every legal format. -/
theorem State.inFormat_gated {s : State} {drive : Real64} (legal : s.cfg.realFmt.legal = true)
    (h : inFormat s.cfg.realFmt drive = true) : inFormat s.cfg.realFmt (s.gated drive) = true := by
  have gate : inFormat s.cfg.realFmt (if s.reg.power then drive else zero64) = true := by
    split
    · exact h
    · exact inFormat_zero64 _
  exact inFormat_clamp gate (inFormat_zero64 _) (inFormat_one64 legal)

/-- `pwmset` neither clamps nor rounds a gated drive of the format any further, so the PWM gets what is published. -/
theorem State.tickWrite_eq {s : State} (temp : Real64) {drive : Real64}
    (h : inFormat s.cfg.realFmt (s.gated drive) = true) : s.tickWrite temp drive = { s with
      pwm := { s.pwm with frac := s.gated drive, value := onTicks (s.gated drive) s.pwm.range }
      reg := { s.reg with
        latestTemp := temp, latestDrive := s.gated drive, nextDue := s.reg.nextDue + s.reg.periodUs }
      timers := { s.timers with regTick := some (s.reg.nextDue + s.reg.periodUs) } } := by
  have frac : toFormat s.cfg.realFmt (clamp (s.gated drive) zero64 one64) = s.gated drive := by
    rw [State.gated, clamp01_clamp01, ← State.gated]
    exact of_decide_eq_true h
  have pwm : (s.tickWrite temp drive).pwm =
      { s.pwm with frac := s.gated drive, value := onTicks (s.gated drive) s.pwm.range } := by
    rw [State.tickWrite_pwm, frac]
  calc s.tickWrite temp drive
    _ = { s with
        pwm := (s.tickWrite temp drive).pwm
        reg := (s.tickWrite temp drive).reg
        timers := (s.tickWrite temp drive).timers } := rfl
    _ = _ := by rw [pwm]; rfl

/-- A drive of 0 is written as it is in every format. -/
theorem State.tickWrite_zero64 (s : State) (temp : Real64) : s.tickWrite temp zero64 = { s with
    pwm := { s.pwm with frac := 0, value := 0 }
    reg := { s.reg with latestTemp := temp, latestDrive := 0, nextDue := s.reg.nextDue + s.reg.periodUs }
    timers := { s.timers with regTick := some (s.reg.nextDue + s.reg.periodUs) } } := by
  have held : inFormat s.cfg.realFmt (s.gated zero64) = true := by
    rw [State.gated_zero64]
    exact inFormat_zero64 _
  rw [State.tickWrite_eq temp held, State.gated_zero64, onTicks_zero64]
  rfl

/-! ### The tick (R431, R432, R437) -/

section
variable {s : State}

theorem State.readingInvalid_iff : s.readingInvalid = true ↔
    s.temp.sample.valid = false ∨ realLe s.temp.sample.value s.cfg.regSentinel = true := by
  rw [State.readingInvalid, Bool.or_eq_true, Bool.not_eq_true']

theorem fire_regTick_of_running (running : s.reg.state = .running) : fire .regTick s = .next s.regTick :=
  if_pos (s.regRunning_iff.2 running)

theorem State.regTick_of_invalid (invalid : s.readingInvalid = true) :
    s.regTick = s.tickWrite s.temp.sample.value zero64 := if_pos invalid

/-- On a valid reading the PID is updated, whatever its drive. -/
theorem State.regTick_of_valid (valid : s.readingInvalid = false) :
    s.regTick =
      let f := s.cfg.realFmt
      let temp := s.temp.sample.value
      let drive := s.pid.drive f s.tickError temp
      let updated := { s with pid := s.pid.after f s.tickError temp }
      if drive = .nan then updated.abnormalExit temp else updated.tickWrite temp (drive.round f) :=
  if_neg (ne_true_of_eq_false valid)

end

/-! ### The statements -/

/-- Settles O44: both commands run the stop procedure, REG.START only while RUNNING. -/
theorem regStartStop : Obligations.RegStartStop := by
  intro s stopped
  have stop : s.stopProcedure = stopped := s.stopProcedure_eq
  refine ⟨rfl, ?stop, rfl, ?start⟩
  case stop => rw [← stop]; rfl
  case start =>
    have start : exec .regStart s = execRegStart s := rfl
    rw [start, execRegStart, stop]
    simp only [State.regRunning_iff]
    split <;> rfl

/-- Settles O46: the three ways a tick can end. -/
theorem regTick : Obligations.RegTick := by
  rintro s temp error f running rfl rfl rfl
  rw [fire_regTick_of_running running]
  refine ⟨fun invalid => ?invalid, fun fresh above => ?valid⟩
  case invalid => rw [State.regTick_of_invalid (State.readingInvalid_iff.2 invalid), State.tickWrite_zero64]
  case valid =>
    have valid : s.readingInvalid = false := by
      simp only [State.readingInvalid, fresh, above, Bool.not_true, Bool.or_false]
    rw [State.regTick_of_valid valid]
    refine ⟨fun noNumber => ?nan, ?number⟩
    case nan =>
      congr 1
      exact (if_pos noNumber).trans (State.abnormalExit_eq ..)
    case number =>
      rintro legal number _ rfl
      congr 1
      exact (if_neg number).trans (State.tickWrite_eq _ (State.inFormat_gated legal (inFormat_round legal _)))

end Sys2Proof.Machine

/-! SUPPORT. The notification unit (R460 to R465): `emit` and NTF.POP case by case, the interrupt line, and the statement
about them. -/

namespace Sys2Proof.Machine

/-! ### Emitting a record (R462) -/

/-- The three cases of `emit` as one conditional. -/
theorem NtfUnit.emit_eq (d : Nat) (u : NtfUnit) (n : Ntf) :
    u.emit d n =
      if u.enable.getLsbD n.kind.bit = false then u
      else if u.queue.length = d then { u with dropped := u.dropped + 1 }
      else { u with queue := u.queue ++ [n] } := by
  rcases u.emit_cases d n with ⟨disabled, e⟩ | ⟨enabled, full, e⟩ | ⟨enabled, room, e⟩
  · rw [e, if_pos disabled]
  · rw [e, if_neg (ne_false_of_eq_true enabled), if_pos full]
  · rw [e, if_neg (ne_false_of_eq_true enabled), if_neg room]

/-! ### The interrupt line (R463) and the two commands (R464, R465) -/

theorem State.irq_iff (s : State) : s.irq = true ↔ s.ntf.queue ≠ [] := by
  rw [State.irq, Bool.not_eq_true', ne_eq, ← List.isEmpty_iff, Bool.not_eq_true]

theorem exec_ntfPop_of_empty {s : State} (empty : s.ntf.queue = []) :
    exec .ntfPop s = .next (s.reply .empty [.u8 0, .u32 0, .u32 0, .u32 0]) := by
  have arm : exec .ntfPop s = execNtfPop s := rfl
  rw [arm, execNtfPop, empty]

theorem exec_ntfPop_of_cons {s : State} {n : Ntf} {rest : List Ntf} (queue : s.ntf.queue = n :: rest) :
    exec .ntfPop s = .next (State.reply { s with ntf := { s.ntf with queue := rest } } .ok
      [.u8 n.kind.code, .u32 n.a, .u32 n.b, .u32 n.c]) := by
  have arm : exec .ntfPop s = execNtfPop s := rfl
  rw [arm, execNtfPop, queue]

theorem exec_ntfEnable (mask : Byte) (s : State) :
    exec (.ntfEnable mask) s = .next (if 7 < mask.toNat then s.reply .badarg []
      else State.reply { s with ntf := { s.ntf with enable := mask } } .ok []) := rfl

/-! ### The statement -/

/-- Settles O47: `emit` writes the unit only, whose three cases decide; a pop asks whether the queue is empty. The tables
of R460 in the statement are those of `NtfKind.bit` and `NtfKind.code` by definition. -/
theorem notifications : Obligations.Notifications := by
  refine ⟨?emit, fun s mask => ⟨rfl, exec_ntfPop_of_empty, ?oldest, rfl, exec_ntfEnable mask s, s.irq_iff⟩⟩
  case emit =>
    intro s n bit kindBit
    have class_bit : bit = n.kind.bit := kindBit
    rw [class_bit, State.emit, NtfUnit.emit_eq]
  case oldest =>
    intro n rest queue
    exact exec_ntfPop_of_cons queue

end Sys2Proof.Machine

/-! SUPPORT. Frames (R141 to R149): the parser of each operand format and the bytes of each operand invert each other, and
the statements about decoding, encoding and the response frame. -/

namespace Sys2Proof

open Sys2Proof.Machine

/-! ### Words and their bytes (R142) -/

/-- The number that bytes stand for, most significant first. -/
def bigEndian (f : Frame) : Nat := f.foldl (fun m byte => 2 ^ 8 * m + byte.toNat) 0

theorem bigEndian_bytes32 (v : U32) : bigEndian (bytes32 v) = v.toNat := by
  have := v.isLt
  simp only [bigEndian, bytes32, List.foldl_cons, List.foldl_nil, BitVec.extractLsb'_toNat, Nat.shiftRight_eq_div_pow]
  omega

theorem bigEndian_bytes64 (v : BitVec 64) : bigEndian (bytes64 v) = v.toNat := by
  have := v.isLt
  simp only [bigEndian, bytes64, List.foldl_cons, List.foldl_nil, BitVec.extractLsb'_toNat, Nat.shiftRight_eq_div_pow]
  omega

theorem toNat_append_byte {w : Nat} (x : BitVec w) (b : Byte) : (x ++ b).toNat = 2 ^ 8 * x.toNat + b.toNat := by
  rw [BitVec.toNat_append, ← Nat.shiftLeft_add_eq_or_of_lt b.isLt, Nat.shiftLeft_eq, Nat.mul_comm]

theorem toNat_be32 (a b c d : Byte) : (be32 a b c d).toNat = bigEndian [a, b, c, d] := by
  simp only [be32, bigEndian, toNat_append_byte, List.foldl_cons, List.foldl_nil, Nat.mul_zero, Nat.zero_add]

theorem toNat_be64 (a b c d e f g h : Byte) : (be64 a b c d e f g h).toNat = bigEndian [a, b, c, d, e, f, g, h] := by
  simp only [be64, bigEndian, toNat_append_byte, List.foldl_cons, List.foldl_nil, Nat.mul_zero, Nat.zero_add]

theorem be32_bytes32 (v : U32) :
    be32 (v.extractLsb' 24 8) (v.extractLsb' 16 8) (v.extractLsb' 8 8) (v.extractLsb' 0 8) = v :=
  BitVec.eq_of_toNat_eq ((toNat_be32 ..).trans (bigEndian_bytes32 v))

theorem be64_bytes64 (v : BitVec 64) :
    be64 (v.extractLsb' 56 8) (v.extractLsb' 48 8) (v.extractLsb' 40 8) (v.extractLsb' 32 8)
      (v.extractLsb' 24 8) (v.extractLsb' 16 8) (v.extractLsb' 8 8) (v.extractLsb' 0 8) = v :=
  BitVec.eq_of_toNat_eq ((toNat_be64 ..).trans (bigEndian_bytes64 v))

theorem bytes32_be32 (a b c d : Byte) : bytes32 (be32 a b c d) = [a, b, c, d] := by
  simp only [bytes32, ← BitVec.toNat_inj, List.cons.injEq, and_true, BitVec.extractLsb'_toNat, toNat_be32, bigEndian,
    List.foldl_cons, List.foldl_nil, Nat.shiftRight_eq_div_pow]
  have := a.isLt; have := b.isLt; have := c.isLt; have := d.isLt
  omega

theorem bytes64_be64 (a b c d e f g h : Byte) : bytes64 (be64 a b c d e f g h) = [a, b, c, d, e, f, g, h] := by
  simp only [bytes64, ← BitVec.toNat_inj, List.cons.injEq, and_true, BitVec.extractLsb'_toNat, toNat_be64, bigEndian,
    List.foldl_cons, List.foldl_nil, Nat.shiftRight_eq_div_pow]
  have := a.isLt; have := b.isLt; have := c.isLt; have := d.isLt
  have := e.isLt; have := f.isLt; have := g.isLt; have := h.isLt
  omega

/-! ### The operand formats (R149) -/

/-- The parsers read the bytes that the encoder writes. -/
theorem formPW_bytes (g : Byte → U32 → Instr) (p : Byte) (w : U32) : formPW g (p :: bytes32 w) = some (g p w) :=
  congrArg (fun v => some (g p v)) (be32_bytes32 w)

theorem formPBW_bytes (g : Byte → Byte → U32 → Instr) (p l : Byte) (w : U32) :
    formPBW g (p :: l :: bytes32 w) = some (g p l w) := congrArg (fun v => some (g p l v)) (be32_bytes32 w)

theorem formW_bytes (g : U32 → Instr) (w : U32) : formW g (bytes32 w) = some (g w) :=
  congrArg (fun v => some (g v)) (be32_bytes32 w)

theorem formR_bytes (g : BitVec 64 → Instr) (x : BitVec 64) : formR g (bytes64 x) = some (g x) :=
  congrArg (fun v => some (g v)) (be64_bytes64 x)

theorem formRR_bytes (g : Real64 → Real64 → Instr) (x y : Real64) :
    formRR g (bytes64 x ++ bytes64 y) = some (g x y) :=
  congrArg₂ (fun v w => some (g v w)) (be64_bytes64 x) (be64_bytes64 y)

theorem formRRR_bytes (g : Real64 → Real64 → Real64 → Instr) (x y z : Real64) :
    formRRR g (bytes64 x ++ bytes64 y ++ bytes64 z) = some (g x y z) := by
  have parsed : formRRR g (bytes64 x ++ bytes64 y ++ bytes64 z) = some (g (be64 _ _ _ _ _ _ _ _) (be64 _ _ _ _ _ _ _ _)
    (be64 _ _ _ _ _ _ _ _)) := rfl
  rw [parsed, be64_bytes64, be64_bytes64, be64_bytes64]

/-- `p` reads only operand bytes that the encoder writes behind `opcode` for the instruction it answers. -/
def ReadsWritten (opcode : Byte) (p : Frame → Option Instr) : Prop :=
  ∀ operands i, p operands = some i → encode i = opcode :: operands

section
variable {opcode : Byte}

theorem readsWritten_HC0 {i : Instr} (e : encode i = [opcode]) : ReadsWritten opcode (formHC0 i) := by
  intro operands j h
  unfold formHC0 at h
  split at h <;> cases h
  exact e

theorem readsWritten_byte {g : Byte → Instr} (e : ∀ b, encode (g b) = [opcode, b]) :
    ReadsWritten opcode (formByte g) := by
  intro operands j h
  unfold formByte at h
  split at h <;> cases h
  exact e _

theorem readsWritten_twoBytes {g : Byte → Byte → Instr} (e : ∀ p b, encode (g p b) = [opcode, p, b]) :
    ReadsWritten opcode (formTwoBytes g) := by
  intro operands j h
  unfold formTwoBytes at h
  split at h <;> cases h
  exact e _ _

theorem readsWritten_PW {g : Byte → U32 → Instr} (e : ∀ p w, encode (g p w) = opcode :: p :: bytes32 w) :
    ReadsWritten opcode (formPW g) := by
  intro operands j h
  unfold formPW at h
  split at h <;> cases h
  rw [e, bytes32_be32]

theorem readsWritten_PBW {g : Byte → Byte → U32 → Instr} (e : ∀ p l w, encode (g p l w) = opcode :: p :: l :: bytes32 w) :
    ReadsWritten opcode (formPBW g) := by
  intro operands j h
  unfold formPBW at h
  split at h <;> cases h
  rw [e, bytes32_be32]

theorem readsWritten_W {g : U32 → Instr} (e : ∀ w, encode (g w) = opcode :: bytes32 w) :
    ReadsWritten opcode (formW g) := by
  intro operands j h
  unfold formW at h
  split at h <;> cases h
  rw [e, bytes32_be32]

theorem readsWritten_R {g : BitVec 64 → Instr} (e : ∀ x, encode (g x) = opcode :: bytes64 x) :
    ReadsWritten opcode (formR g) := by
  intro operands j h
  unfold formR at h
  split at h <;> cases h
  rw [e, bytes64_be64]

theorem readsWritten_RR {g : Real64 → Real64 → Instr} (e : ∀ x y, encode (g x y) = opcode :: (bytes64 x ++ bytes64 y)) :
    ReadsWritten opcode (formRR g) := by
  intro operands j h
  unfold formRR at h
  split at h <;> cases h
  rw [e, bytes64_be64, bytes64_be64]
  rfl

theorem readsWritten_RRR {g : Real64 → Real64 → Real64 → Instr}
    (e : ∀ x y z, encode (g x y z) = opcode :: (bytes64 x ++ bytes64 y ++ bytes64 z)) :
    ReadsWritten opcode (formRRR g) := by
  intro operands j h
  unfold formRRR at h
  split at h <;> cases h
  rw [e, bytes64_be64, bytes64_be64, bytes64_be64]
  rfl

end

/-- Every row of R146: its format is one of the nine. -/
theorem opcodeRow_readsWritten {op n : Nat} {p : Frame → Option Instr} (row : opcodeRow op = some (n, p)) :
    ReadsWritten (BitVec.ofNat 8 op) p := by
  unfold opcodeRow at row
  split at row <;> cases row
  all_goals first
    | exact readsWritten_HC0 rfl
    | exact readsWritten_byte fun _ => rfl
    | exact readsWritten_twoBytes fun _ _ => rfl
    | exact readsWritten_W fun _ => rfl
    | exact readsWritten_R fun _ => rfl
    | exact readsWritten_PW fun _ _ => rfl
    | exact readsWritten_PBW fun _ _ _ => rfl
    | exact readsWritten_RR fun _ _ => rfl
    | exact readsWritten_RRR fun _ _ _ => rfl

/-! ### Decoding (R141, R144) -/

section
variable {port : PortName} {opcode : Byte} {operands : Frame} {n : Nat} {p : Frame → Option Instr} {i : Instr}

theorem decodeOn_cons (own : opcodePort opcode = port) (row : opcodeRow opcode.toNat = some (n, p))
    (parsed : p operands = some i) : decodeOn port (opcode :: operands) = .ok i := by
  simp only [decodeOn, own, ne_eq, not_true_eq_false, if_false, row, parsed]

theorem decode_cons (row : opcodeRow opcode.toNat = some (n, p)) (parsed : p operands = some i) :
    decode (opcode :: operands) = .ok i := decodeOn_cons rfl row parsed

theorem decodeOn_unlisted (h : opcodePort opcode = port → opcodeRow opcode.toNat = none) :
    decodeOn port (opcode :: operands) = .error (.unlisted opcode) := by
  by_cases own : opcodePort opcode = port
  · simp only [decodeOn, own, ne_eq, not_true_eq_false, if_false, h own]
  · simp only [decodeOn, ne_eq, own, not_false_eq_true, if_true]

end

/-- Everything that a decoded frame is. -/
theorem decodeOn_ok {port : PortName} {f : Frame} {i : Instr} (h : decodeOn port f = .ok i) :
    ∃ opcode operands n p, f = opcode :: operands ∧ opcodePort opcode = port ∧
      opcodeRow opcode.toNat = some (n, p) ∧ p operands = some i := by
  unfold decodeOn at h
  split at h
  · cases h
  · split at h
    · cases h
    case isFalse own =>
      split at h
      · cases h
      next row =>
        split at h <;> cases h
        next parsed => exact ⟨_, _, _, _, rfl, not_not.1 own, row, parsed⟩

/-- Settles O1: the parser of each format reads the operands back from the bytes that the encoder writes. -/
theorem encodeThenDecode : Obligations.EncodeThenDecode := by
  intro i
  cases i with
  | gpioPulse pin level width => exact decode_cons rfl (formPBW_bytes _ pin level width)
  | gpioWaitedge pin timeout => exact decode_cons rfl (formPW_bytes _ pin timeout)
  | pwmSetrange w | pwmSetdivisor w => exact decode_cons rfl (formW_bytes _ w)
  | pwmSetvalue x | rangeSetspeed x | flowNotifyafter x | regSettarget x | regSettimestep x | envTime x =>
    exact decode_cons rfl (formR_bytes _ x)
  | pidSetlimits x y | pidUpdate x y => exact decode_cons rfl (formRR_bytes _ x y)
  | pidSetgains x y z => exact decode_cons rfl (formRRR_bytes _ x y z)
  | _ => exact decode_cons rfl rfl

/-- Settles O2: the parser of the opcode's row reads only what the encoder writes. -/
theorem decodeThenEncode : Obligations.DecodeThenEncode := by
  intro port f i h
  obtain ⟨opcode, operands, n, p, rfl, own, row, parsed⟩ := decodeOn_ok h
  have written := opcodeRow_readsWritten row operands i parsed
  rw [BitVec.ofNat_toNat, BitVec.setWidth_eq] at written
  exact ⟨written, own⟩

/-- Settles O3: each frame is evaluated. -/
theorem specFramesDecode : Obligations.SpecFramesDecode := by
  refine ⟨?_, ?_, ?_, ?_, ?_, ?_, ?_, ?_, ?_, ?_, ?_, ?_, ?_⟩ <;> rfl

/-! ### Opcodes that are not listed (R144, R147) -/

/-- The 47 opcodes that R146 lists for the host port. -/
def hostOpcodes : List Nat :=
  [0x00, 0x01, 0x02, 0x03, 0x04, 0x05, 0x06, 0x07, 0x10, 0x11, 0x12, 0x13, 0x20, 0x21, 0x30, 0x31, 0x32, 0x33, 0x34,
    0x35, 0x40, 0x41, 0x50, 0x51, 0x52, 0x53, 0x60, 0x61, 0x62, 0x63, 0x70, 0x71, 0x72, 0x80, 0x81, 0x82, 0x83, 0x90,
    0x91, 0x92, 0x93, 0x94, 0x95, 0x96, 0xA0, 0xA1, 0xA2]

/-- The rows of R146 are the host's opcodes and the two of unit 0xF. -/
theorem listed_of_opcodeRow {op : Nat} {r : Nat × (Frame → Option Instr)} (row : opcodeRow op = some r) :
    op ∈ hostOpcodes ∨ op = 0xF0 ∨ op = 0xF1 := by
  unfold opcodeRow at row
  split at row
  case h_50 => cases row
  all_goals decide

theorem opcodeRow_eq_none {op : Nat} (host : op ∉ hostOpcodes) (pin : op ≠ 0xF0) (time : op ≠ 0xF1) :
    opcodeRow op = none :=
  Option.eq_none_iff_forall_ne_some.2 fun _ row => by
    rcases listed_of_opcodeRow row with h | h | h
    · exact host h
    · exact pin h
    · exact time h

theorem decodeOn_host_unlisted {opcode : Byte} (operands : Frame) (h : opcode.toNat ∉ hostOpcodes) :
    decodeOn .host (opcode :: operands) = .error (.unlisted opcode) := by
  refine decodeOn_unlisted fun own => ?_
  have below : ¬0xF0 ≤ opcode.toNat := by
    intro above
    simp [opcodePort, above] at own
  exact opcodeRow_eq_none h (by omega) (by omega)

theorem decodeOn_environment_unlisted {opcode : Byte} (operands : Frame) (pin : opcode ≠ 0xF0) (time : opcode ≠ 0xF1) :
    decodeOn .environment (opcode :: operands) = .error (.unlisted opcode) := by
  refine decodeOn_unlisted fun own => opcodeRow_eq_none ?_ ?_ ?_
  · have above : 0xF0 ≤ opcode.toNat := by
      by_contra below
      simp [opcodePort, below] at own
    simp only [hostOpcodes, List.mem_cons, List.not_mem_nil, or_false]
    omega
  · exact fun e => pin (BitVec.eq_of_toNat_eq e)
  · exact fun e => time (BitVec.eq_of_toNat_eq e)

end Sys2Proof

namespace Sys2Proof.Machine

/-! ### The steps that take a frame (R8, R110, R471) -/

section
variable {s : State} {f : Frame} {rest : List Frame} {i : Instr} {opcode : Byte}

theorem acceptHost_of_held {h : Hold} (held : s.port = .held h) : acceptHost s = .next s := by
  simp only [acceptHost, held]

theorem acceptHost_of_ok (idle : s.port = .idle) (waiting : s.outside.hostIn = f :: rest)
    (decoded : decodeOn .host f = .ok i) :
    acceptHost s = exec i { s with outside := { s.outside with hostIn := rest } } := by
  simp only [acceptHost, idle, waiting, decoded]

theorem acceptHost_of_unlisted (idle : s.port = .idle) (waiting : s.outside.hostIn = f :: rest)
    (unlisted : decodeOn .host f = .error (.unlisted opcode)) :
    acceptHost s = .next (State.raise { s with outside := { s.outside with hostIn := rest } } .illegal []) := by
  simp only [acceptHost, idle, waiting, unlisted]

theorem takeEnv_of_ok (waiting : s.outside.envIn = f :: rest) (decoded : decodeOn .environment f = .ok i) :
    takeEnv s = exec i { s with outside := { s.outside with envIn := rest } } := by
  simp only [takeEnv, waiting, decoded]

theorem takeEnv_of_unlisted (waiting : s.outside.envIn = f :: rest)
    (unlisted : decodeOn .environment f = .error (.unlisted opcode)) :
    takeEnv s = .next { s with outside := { s.outside with envIn := rest } } := by
  simp only [takeEnv, waiting, unlisted]

theorem takeTimed_of_due {a : Action} {due : Nat} (pending : s.timers.get a = some due) (isDue : due ≤ s.now) :
    takeTimed a s = fire a (s.cancel a) := by
  simp only [takeTimed, pending, if_pos isDue]

theorem takeTimed_of_not_due {a : Action} (notDue : ∀ due, s.timers.get a = some due → s.now < due) :
    takeTimed a s = .next s := by
  cases pending : s.timers.get a with
  | none => simp only [takeTimed, pending]
  | some due => simp only [takeTimed, pending, if_neg (Nat.not_le.2 (notDue due pending))]

end

/-- The step that the next choice names, the choice taken. -/
theorem step_of_pick {s : State} {p : Pick} (legal : s.cfg.wellFormed = true) (pick : s.nextPick.1 = p) :
    step s = take p { s with outside := s.nextPick.2.outside } := by
  rw [step, if_pos legal, pick, ← s.nextPick_frame]

/-- A choice leaves the frames that wait. -/
theorem State.nextPick_hostIn (s : State) : s.nextPick.2.outside.hostIn = s.outside.hostIn := by
  unfold State.nextPick; split <;> rfl

theorem State.nextPick_envIn (s : State) : s.nextPick.2.outside.envIn = s.outside.envIn := by
  unfold State.nextPick; split <;> rfl

/-- Settles O5: no such opcode has a row on its port. -/
theorem unlistedOpcode : Obligations.UnlistedOpcode := by
  intro s opcode operands rest legal
  refine ⟨fun pick idle frames unlisted => ?host, fun pick frames pin time => ?env⟩
  case host =>
    exact (step_of_pick legal pick).trans
      (acceptHost_of_unlisted idle (s.nextPick_hostIn.trans frames) (decodeOn_host_unlisted operands unlisted))
  case env =>
    exact (step_of_pick legal pick).trans
      (takeEnv_of_unlisted (s.nextPick_envIn.trans frames) (decodeOn_environment_unlisted operands pin time))

/-- Settles O6: the frame is taken and its instruction runs. -/
theorem stepRunsDecoded : Obligations.StepRunsDecoded := by
  intro s f rest i legal
  refine ⟨fun pick idle frames decoded => ?host, fun pick frames decoded => ?env⟩
  case host => exact (step_of_pick legal pick).trans (acceptHost_of_ok idle (s.nextPick_hostIn.trans frames) decoded)
  case env => exact (step_of_pick legal pick).trans (takeEnv_of_ok (s.nextPick_envIn.trans frames) decoded)

/-- Settles O7: what each choice does when it is no frame's. -/
theorem stepChoices : Obligations.StepChoices := by
  refine fun s => ⟨fun legal pick h held => ?held, fun legal a pick => ⟨fun due pending isDue => ?fires, fun notDue => ?waits⟩,
    fun illFormed => if_neg (ne_true_of_eq_false illFormed)⟩
  case held => exact (step_of_pick legal pick).trans (acceptHost_of_held held)
  case fires => exact (step_of_pick legal pick).trans (takeTimed_of_due pending isDue)
  case waits => exact (step_of_pick legal pick).trans (takeTimed_of_not_due notDue)

/-! ### The response frame (R142, R143, R600) -/

/-- The statuses in the order of their codes (R600). -/
def statusTable : List Status := [.ok, .illegal, .badarg, .busy, .timeout, .absent, .ioerr, .empty]

theorem Status.code_injective : Function.Injective Status.code :=
  Function.LeftInverse.injective (g := fun code => statusTable.getD code.toNat .ok) fun st => by cases st <;> rfl

theorem bytes32_injective : Function.Injective bytes32 := fun v w h => by
  rw [← BitVec.toNat_inj, ← bigEndian_bytes32, h, bigEndian_bytes32]

theorem bytes64_injective : Function.Injective bytes64 := fun v w h => by
  rw [← BitVec.toNat_inj, ← bigEndian_bytes64, h, bigEndian_bytes64]

/-- The length of a result tells its type, and its bytes then its value. -/
theorem Val.bytes_injective : Function.Injective Val.bytes := by
  intro v w h
  have len := congrArg List.length h
  cases v with
  | u8 b =>
    cases w with
    | u8 b' => rw [List.singleton_inj.1 h]
    | u32 w' => cases len
    | real x' => cases len
  | u32 n =>
    cases w with
    | u8 b' => cases len
    | u32 w' => rw [bytes32_injective h]
    | real x' => cases len
  | real x =>
    cases w with
    | u8 b' => cases len
    | u32 w' => cases len
    | real x' => rw [bytes64_injective h]

/-- Results of the same lengths are cut apart again. -/
theorem flatMap_bytes_injective {vs ws : List Val}
    (lengths : vs.map (fun v => v.bytes.length) = ws.map (fun v => v.bytes.length))
    (h : vs.flatMap Val.bytes = ws.flatMap Val.bytes) : vs = ws := by
  induction vs generalizing ws with
  | nil => exact (List.map_eq_nil_iff.1 lengths.symm).symm
  | cons v vs ih =>
    cases ws with
    | nil => cases lengths
    | cons w ws =>
      obtain ⟨head, tail⟩ := List.cons.inj lengths
      obtain ⟨bytes, others⟩ := List.append_inj h head
      rw [Val.bytes_injective bytes, ih tail others]

/-- Settles O4: the results are read back one after the other. -/
theorem responseFrames : Obligations.ResponseFrames := by
  refine ⟨⟨rfl, fun st => by cases st <;> decide⟩, fun _ => rfl, ?numbers, fun r r' lengths h => ?injective⟩
  case numbers =>
    rintro n b w x v (⟨rfl, rfl⟩ | ⟨rfl, rfl⟩ | ⟨rfl, rfl⟩)
    · exact ⟨rfl, by simp [Val.bytes]⟩
    · exact ⟨rfl, bigEndian_bytes32 w⟩
    · exact ⟨rfl, bigEndian_bytes64 x⟩
  case injective =>
    obtain ⟨code, results⟩ := List.cons.inj h
    have status := Status.code_injective code
    have values := flatMap_bytes_injective lengths results
    cases r; cases r'
    exact congr (congrArg Response.mk status) values

end Sys2Proof.Machine

/-! SUPPORT. Everything that a host command, an environment input and a timed action can do, one inductive relation each,
and the one induction over a step from which the invariants follow. -/

namespace Sys2Proof.Machine

/-! ### The effects -/

/-- A pin's owner stays, and so do the direction and the edge mode of a pin that a unit owns. -/
def Pin.SameWiring (x y : Pin) : Prop :=
  y.owner = x.owner ∧ (x.owner ≠ .host → y.dir = x.dir ∧ y.edgeMode = x.edgeMode)

/-- What a host command makes of `s`; `o` and `b` are what its draws and its bus traffic leave. -/
inductive HostEffect (s : State) : State → Prop
  | answers (st : Status) (rs : List Val) : HostEffect s (s.reply st rs)
  | draws (o : Outside) (rs : List Val) : HostEffect s (State.reply { s with outside := o } .ok rs)
  | writesPin {p : Nat} {x : Pin} (o : Outside) (same : (s.pin p).SameWiring x) :
      HostEffect s ((State.setPin { s with outside := o } p x).reply .ok [])
  | pulses (pin level : Byte) (width : U32) : HostEffect s
      ((s.pinOut pin.toNat (bitOf level)).holdUntil (.pulse pin level width) (s.now + width.toNat))
  | awaitsEdge (pin : Byte) (timeout : U32) :
      HostEffect s (s.holdUntil (.waitEdge pin timeout) (s.now + timeout.toNat))
  | startsClock :
      HostEffect s (State.reply { s with clk := { s.clk with swStart := s.now, swRunning := true } } .ok [])
  | stopsClock :
      HostEffect s (State.reply { s with clk := { s.clk with swStop := s.now, swRunning := false } } .ok [])
  | probes (presence : Presence) (o : Outside) (b : List BusOp) {st : Status} (status : st = .ok ∨ st = .absent) :
      HostEffect s
        (State.reply { s with adc := { s.adc with presence := presence }, outside := o, bus := b } st [])
  | asksVoltage (ch : Byte) : HostEffect s ((s.hold (.getVoltage ch)).request (ch.setWidth 2) .host)
  | asksBar : HostEffect s ((s.hold .getBar).request s.cfg.pressAdcCh .press)
  | setsDuty {x : Real64} (finite : realFinite x = true) : HostEffect s ((s.pwmSet x).reply .ok [])
  | setsRange {r : U32} (positive : r ≠ 0) : HostEffect s
      (State.reply { s with pwm := { s.pwm with range := r, value := onTicks s.pwm.frac r } } .ok [])
  | setsDivisor {d : U32} (positive : d ≠ 0) (small : d.toNat ≤ s.cfg.pwmDivMax) :
      HostEffect s (State.reply { s with pwm := { s.pwm with divisor := d } } .ok [])
  | enables (b : Bool) : HostEffect s (State.reply { s with pwm := { s.pwm with enabled := b } } .ok [])
  | measures (mode : s.cfg.rangeMode = .poll) :
      HostEffect s ((s.hold .measure).schedule .rangeHostTrig s.startTime)
  | awaitsSample (mode : s.cfg.rangeMode = .background) :
      HostEffect s (s.holdUntil .ready (s.now + s.cfg.readyTimeoutUs))
  | awaitsMeasurement (mode : s.cfg.rangeMode = .poll) :
      HostEffect s ((s.hold .ready).schedule .rangeHostTrig s.startTime)
  | setsSpeed {c : Real64} (finite : realFinite c = true) (positive : realLe c zero64 = false) :
      HostEffect s (State.reply { s with range := { s.range with speed := s.toReal c } } .ok [])
  | armsFlow (target : U32) :
      HostEffect s (State.reply { s with flow := { s.flow with target := target, armed := true } } .ok [])
  | setsGains {p i d : Real64} (fp : realFinite p = true) (fi : realFinite i = true) (fd : realFinite d = true) :
      HostEffect s (State.reply
        { s with pid := { s.pid with pGain := s.toReal p, iGain := s.toReal i, dGain := s.toReal d } } .ok [])
  | setsLimits {lo hi : Real64} (flo : realFinite lo = true) (fhi : realFinite hi = true) :
      HostEffect s (State.reply { s with pid := { s.pid with iMin := s.toReal lo, iMax := s.toReal hi } } .ok [])
  | updatesPid {error position : Real64} (o : Outside) (v : Real64) (fe : realFinite error = true)
      (fp : realFinite position = true) : HostEffect s (State.reply
        { s with pid := s.pid.after s.cfg.realFmt error (s.toReal position), outside := o } .ok [.real v])
  | startsReg : HostEffect s ((State.schedule
      { s with reg := { s.reg with state := .running, fault := false, nextDue := s.now } } .regTick s.now).reply .ok [])
  | restartsReg : HostEffect s ((State.schedule { s.stopProcedure with
      reg := { s.stopProcedure.reg with state := .running, fault := false, nextDue := s.now } } .regTick s.now).reply .ok [])
  | stopsReg : HostEffect s (s.stopProcedure.reply .ok [])
  | setsTarget {t : Real64} (finite : realFinite t = true) :
      HostEffect s (State.reply { s with reg := { s.reg with target := s.toReal t } } .ok [])
  | setsTimeStep {sec : Real64} (finite : realFinite sec = true) (legal : legalPeriod (periodOf sec) = true) :
      HostEffect s (State.reply
        { s with reg := { s.reg with timeStep := s.toReal sec, periodUs := (periodOf sec).toNat } } .ok [])
  | setsPower (b : Bool) : HostEffect s (State.reply { s with reg := { s.reg with power := b } } .ok [])
  | pops {n : Ntf} {rest : List Ntf} (queue : s.ntf.queue = n :: rest) (rs : List Val) :
      HostEffect s (State.reply { s with ntf := { s.ntf with queue := rest } } .ok rs)
  | masks {mask : Byte} (legal : mask.toNat ≤ 7) :
      HostEffect s (State.reply { s with ntf := { s.ntf with enable := mask } } .ok [])

/-- What an environment input makes of `s`. -/
inductive EnvEffect (s : State) : State → Prop
  | ignores : EnvEffect s s
  | setsLevel (p : Nat) (l : Bool) : EnvEffect s (s.setPin p { s.pin p with inLevel := l })
  | dispatches (p : Nat) (l : Bool) (ev : EdgeEvent) :
      EnvEffect s ((s.setPin p { s.pin p with inLevel := l }).dispatch ev)
  | passes {t : Nat} (admits : s.admits t = true) : EnvEffect s { s with now := t }

/-- What a timed action makes of `s`, in which it is no longer pending. -/
inductive FireEffect (s : State) : Action → State → Prop
  | endsPulse {pin level : Byte} {width : U32} {tAcc : Nat} {tDl : Option Nat}
      (held : s.port = .held { op := .pulse pin level width, tAcc := tAcc, tDl := tDl }) :
      FireEffect s .hostDeadline ((s.pinOut pin.toNat (!bitOf level)).complete .ok [])
  | edgeTimeout {pin : Byte} {timeout : U32} {tAcc : Nat} {tDl : Option Nat}
      (held : s.port = .held { op := .waitEdge pin timeout, tAcc := tAcc, tDl := tDl }) :
      FireEffect s .hostDeadline (s.complete .timeout [.u8 0, .u32 0])
  | readyTimeout {tAcc : Nat} {tDl : Option Nat} (held : s.port = .held { op := .ready, tAcc := tAcc, tDl := tDl }) :
      FireEffect s .hostDeadline (s.complete .timeout [])
  | samples : FireEffect s .rangeSample s.sampleStart
  | retries : FireEffect s .rangeRetry (s.measureStart .sampler)
  | measures : FireEffect s .rangeHostTrig (s.measureStart .host)
  | trigEnds : FireEffect s .rangeTrigEnd s.trigEnd
  | noEcho : FireEffect s .rangeEchoTimeout s.echoTimeout
  | pollsButtons : FireEffect s .btnPoll s.btnPoll
  | pollsAdc {ch : BitVec 2} {req : AdcReq} {t0 : Nat} (flight : s.adc.phase = .converting ch req t0) :
      FireEffect s .adcPoll (s.poll req t0)
  | ticks (running : s.reg.state = .running) : FireEffect s .regTick s.regTick
  | flowStops : FireEffect s .flowIdle s.flowStop

/-! ### Every instruction and every timed action has one of them -/

/-- The check of R201 passes or answers. -/
theorem HostEffect.of_pinCheck {s t : State} {pin : Byte}
    (pass : s.pinCheck pin = none → (s.pin pin.toNat).owner = .host → HostEffect s t) :
    HostEffect s (match s.pinCheck pin with
      | some st => s.raise st []
      | none => t) := by
  cases check : s.pinCheck pin with
  | some st => exact .answers st []
  | none => exact pass check ((s.pinCheck_none pin).1 check).2

theorem Pin.sameWiring_of_host {x y : Pin} (host : x.owner = .host) (owner : y.owner = x.owner) : x.SameWiring y :=
  ⟨owner, fun owned => absurd host owned⟩

section
variable (s : State)

theorem execGpioSetdir_effect (pin dir : Byte) : ∃ t, execGpioSetdir pin dir s = .next t ∧ HostEffect s t := by
  refine ⟨_, rfl, ?_⟩
  split
  · exact .answers ..
  · refine .of_pinCheck fun _ host => ?_
    split
    · exact .writesPin (x := { s.pin pin.toNat with dir := .output }) s.outside (Pin.sameWiring_of_host host rfl)
    · simp only
      rw [s.drawLevel_frame]
      exact .writesPin _ (Pin.sameWiring_of_host host rfl)

theorem execGpioWrite_effect (pin level : Byte) : ∃ t, execGpioWrite pin level s = .next t ∧ HostEffect s t := by
  refine ⟨_, rfl, ?_⟩
  split
  · exact .answers ..
  · exact .of_pinCheck fun _ host => .writesPin (s := s) s.outside (Pin.sameWiring_of_host host rfl)

theorem execGpioRead_effect (pin : Byte) : ∃ t, execGpioRead pin s = .next t ∧ HostEffect s t := by
  refine ⟨_, rfl, ?_⟩
  split
  · exact .answers ..
  · simp only
    rw [s.readPin_frame]
    exact .draws ..

theorem execGpioPulse_effect (pin level : Byte) (width : U32) :
    ∃ t, execGpioPulse pin level width s = .next t ∧ HostEffect s t := by
  refine ⟨_, rfl, ?_⟩
  split
  · exact .answers ..
  · refine .of_pinCheck fun _ _ => ?_
    split
    · exact .answers ..
    · exact .pulses ..

theorem execGpioSetedge_effect (pin mode : Byte) : ∃ t, execGpioSetedge pin mode s = .next t ∧ HostEffect s t := by
  refine ⟨_, rfl, ?_⟩
  split
  · exact .answers ..
  · exact .of_pinCheck fun _ host => .writesPin (s := s) s.outside (Pin.sameWiring_of_host host rfl)

theorem execGpioWaitedge_effect (pin : Byte) (timeout : U32) :
    ∃ t, execGpioWaitedge pin timeout s = .next t ∧ HostEffect s t := by
  refine ⟨_, rfl, ?_⟩
  split
  · exact .answers ..
  · split
    · exact .answers ..
    · exact .awaitsEdge ..

theorem execGpioSubscribe_effect (pin : Byte) : ∃ t, execGpioSubscribe pin s = .next t ∧ HostEffect s t := by
  refine ⟨_, rfl, ?_⟩
  split
  · exact .answers ..
  · exact .writesPin (s := s) s.outside ⟨rfl, fun _ => ⟨rfl, rfl⟩⟩

theorem execGpioUnsubscribe_effect (pin : Byte) : ∃ t, execGpioUnsubscribe pin s = .next t ∧ HostEffect s t := by
  refine ⟨_, rfl, ?_⟩
  split
  · exact .answers ..
  · exact .writesPin (s := s) s.outside ⟨rfl, fun _ => ⟨rfl, rfl⟩⟩

theorem execSwStop_effect : ∃ t, execSwStop s = .next t ∧ HostEffect s t := by
  refine ⟨_, rfl, ?_⟩
  split
  · exact .stopsClock
  · exact .answers ..

theorem execAdcOpen_effect : ∃ t, execAdcOpen s = .next t ∧ HostEffect s t := by
  refine ⟨_, rfl, ?_⟩
  split
  · exact .answers ..
  · simp only
    rw [s.probe_frame]
    refine .probes _ _ _ ?_
    split
    · exact .inl rfl
    · exact .inr rfl

theorem execAdcGetvoltage_effect (ch : Byte) : ∃ t, execAdcGetvoltage ch s = .next t ∧ HostEffect s t := by
  refine ⟨_, rfl, ?_⟩
  split
  · exact .answers ..
  · split
    · exact .answers ..
    · exact .asksVoltage ch

theorem execPressGetbar_effect : ∃ t, execPressGetbar s = .next t ∧ HostEffect s t := by
  refine ⟨_, rfl, ?_⟩
  split
  · exact .answers ..
  · exact .asksBar

theorem execPwmSetvalue_effect (x : Real64) : ∃ t, execPwmSetvalue x s = .next t ∧ HostEffect s t := by
  refine ⟨_, rfl, ?_⟩
  split
  · exact .answers ..
  case isFalse finite =>
    split
    · exact .answers ..
    · exact .setsDuty (by simpa using finite)

theorem execPwmSetrange_effect (r : U32) : ∃ t, execPwmSetrange r s = .next t ∧ HostEffect s t := by
  refine ⟨_, rfl, ?_⟩
  split
  · exact .answers ..
  case isFalse positive => exact .setsRange positive

theorem execPwmSetdivisor_effect (d : U32) : ∃ t, execPwmSetdivisor d s = .next t ∧ HostEffect s t := by
  refine ⟨_, rfl, ?_⟩
  split
  · exact .answers ..
  case isFalse legal =>
    obtain ⟨positive, small⟩ : ¬d = 0 ∧ d.toNat ≤ s.cfg.pwmDivMax := by simpa using legal
    exact .setsDivisor positive small

theorem execRangeMeasure_effect : ∃ t, execRangeMeasure s = .next t ∧ HostEffect s t := by
  refine ⟨_, rfl, ?_⟩
  split
  case h_1 => exact .answers ..
  case h_2 mode => exact .measures mode

theorem execRangeReady_effect : ∃ t, execRangeReady s = .next t ∧ HostEffect s t := by
  refine ⟨_, rfl, ?_⟩
  split
  · exact .answers ..
  · split
    case h_1 mode => exact .awaitsSample mode
    case h_2 mode => exact .awaitsMeasurement mode

theorem execRangeSetspeed_effect (c : Real64) : ∃ t, execRangeSetspeed c s = .next t ∧ HostEffect s t := by
  refine ⟨_, rfl, ?_⟩
  split
  · exact .answers ..
  case isFalse legal =>
    obtain ⟨finite, positive⟩ : realFinite c = true ∧ realLe c zero64 = false := by simpa using legal
    exact .setsSpeed finite positive

theorem execFlowNotifyafter_effect (litres : Real64) :
    ∃ t, execFlowNotifyafter litres s = .next t ∧ HostEffect s t := by
  refine ⟨_, rfl, ?_⟩
  split
  · exact .answers ..
  · split
    · exact .answers ..
    · exact .armsFlow _

theorem execBtnGet_effect (index : Byte) : ∃ t, execBtnGet index s = .next t ∧ HostEffect s t := by
  refine ⟨_, rfl, ?_⟩
  split <;> exact .answers ..

theorem execPidSetgains_effect (p i d : Real64) : ∃ t, execPidSetgains p i d s = .next t ∧ HostEffect s t := by
  refine ⟨_, rfl, ?_⟩
  split
  · exact .answers ..
  case isFalse legal =>
    obtain ⟨⟨fp, fi⟩, fd⟩ : (realFinite p = true ∧ realFinite i = true) ∧ realFinite d = true := by simpa using legal
    exact .setsGains fp fi fd

theorem execPidSetlimits_effect (lo hi : Real64) : ∃ t, execPidSetlimits lo hi s = .next t ∧ HostEffect s t := by
  refine ⟨_, rfl, ?_⟩
  split
  · exact .answers ..
  case isFalse legal =>
    obtain ⟨flo, fhi⟩ : realFinite lo = true ∧ realFinite hi = true := by simpa using legal
    exact .setsLimits flo fhi

theorem execPidUpdate_effect (error position : Real64) :
    ∃ t, execPidUpdate error position s = .next t ∧ HostEffect s t := by
  refine ⟨_, rfl, ?_⟩
  split
  · exact .answers ..
  case isFalse legal =>
    obtain ⟨fe, fp⟩ : realFinite error = true ∧ realFinite position = true := by simpa using legal
    split
    · exact .answers ..
    · simp only
      rw [State.freshReal_frame]
      exact .updatesPid _ _ fe fp

theorem execRegStart_effect : ∃ t, execRegStart s = .next t ∧ HostEffect s t := by
  refine ⟨_, rfl, ?_⟩
  simp only
  split
  · exact .restartsReg
  · exact .startsReg

theorem execRegSettarget_effect (x : Real64) : ∃ t, execRegSettarget x s = .next t ∧ HostEffect s t := by
  refine ⟨_, rfl, ?_⟩
  split
  · exact .answers ..
  case isFalse finite => exact .setsTarget (by simpa using finite)

theorem execRegSettimestep_effect (x : Real64) : ∃ t, execRegSettimestep x s = .next t ∧ HostEffect s t := by
  refine ⟨_, rfl, ?_⟩
  split
  · exact .answers ..
  case isFalse finite =>
    split
    · exact .answers ..
    case isFalse legal => exact .setsTimeStep (by simpa using finite) (by simpa using legal)

theorem execRegSetpower_effect (on : Byte) : ∃ t, execRegSetpower on s = .next t ∧ HostEffect s t := by
  refine ⟨_, rfl, ?_⟩
  split
  · exact .answers ..
  · exact .setsPower _

theorem execNtfPop_effect : ∃ t, execNtfPop s = .next t ∧ HostEffect s t := by
  refine ⟨_, rfl, ?_⟩
  split
  case h_1 => exact .answers ..
  case h_2 queue => exact .pops queue _

theorem execNtfEnable_effect (mask : Byte) : ∃ t, execNtfEnable mask s = .next t ∧ HostEffect s t := by
  refine ⟨_, rfl, ?_⟩
  split
  · exact .answers ..
  case isFalse legal => exact .masks (Nat.not_lt.1 legal)

/-- A host command always answers a next state, and has one of the effects. -/
theorem exec_host (i : Instr) (host : i.port = .host) : ∃ t, exec i s = .next t ∧ HostEffect s t := by
  cases i with
  | gpioSetdir pin dir => exact execGpioSetdir_effect s pin dir
  | gpioWrite pin level => exact execGpioWrite_effect s pin level
  | gpioRead pin => exact execGpioRead_effect s pin
  | gpioPulse pin level width => exact execGpioPulse_effect s pin level width
  | gpioSetedge pin mode => exact execGpioSetedge_effect s pin mode
  | gpioWaitedge pin timeout => exact execGpioWaitedge_effect s pin timeout
  | gpioSubscribe pin => exact execGpioSubscribe_effect s pin
  | gpioUnsubscribe pin => exact execGpioUnsubscribe_effect s pin
  | swStart => exact ⟨_, rfl, .startsClock⟩
  | swStop => exact execSwStop_effect s
  | adcOpen => exact execAdcOpen_effect s
  | adcGetvoltage ch => exact execAdcGetvoltage_effect s ch
  | pressGetbar => exact execPressGetbar_effect s
  | pwmSetvalue x => exact execPwmSetvalue_effect s x
  | pwmSetrange r => exact execPwmSetrange_effect s r
  | pwmSetdivisor d => exact execPwmSetdivisor_effect s d
  | pwmEnable => exact ⟨_, rfl, .enables true⟩
  | pwmDisable => exact ⟨_, rfl, .enables false⟩
  | rangeMeasure => exact execRangeMeasure_effect s
  | rangeReady => exact execRangeReady_effect s
  | rangeSetspeed c => exact execRangeSetspeed_effect s c
  | flowNotifyafter litres => exact execFlowNotifyafter_effect s litres
  | btnGet index => exact execBtnGet_effect s index
  | pidSetgains p i d => exact execPidSetgains_effect s p i d
  | pidSetlimits lo hi => exact execPidSetlimits_effect s lo hi
  | pidUpdate error position => exact execPidUpdate_effect s error position
  | regStart => exact execRegStart_effect s
  | regStop => exact ⟨_, rfl, .stopsReg⟩
  | regSettarget x => exact execRegSettarget_effect s x
  | regSettimestep x => exact execRegSettimestep_effect s x
  | regSetpower on => exact execRegSetpower_effect s on
  | ntfPop => exact execNtfPop_effect s
  | ntfEnable mask => exact execNtfEnable_effect s mask
  | envPin | envTime => cases host
  | _ => exact ⟨_, rfl, .answers ..⟩

/-- An environment input always answers a next state, and has one of the effects. -/
theorem exec_env (i : Instr) (env : i.port = .environment) : ∃ t, exec i s = .next t ∧ EnvEffect s t := by
  cases i with
  | envPin pin level =>
    refine ⟨_, rfl, ?_⟩
    simp only
    split
    · exact .ignores
    · split
      · exact .ignores
      · split
        · exact .ignores
        · split
          · exact .dispatches ..
          · exact .setsLevel ..
  | envTime t =>
    refine ⟨_, rfl, ?_⟩
    split
    case isTrue admits => exact .passes admits
    case isFalse => exact .ignores
  | _ => cases env

variable {s}

theorem HostEffect.of_exec {i : Instr} {t : State} (host : i.port = .host) (h : exec i s = .next t) : HostEffect s t := by
  obtain ⟨t', e, effect⟩ := exec_host s i host
  cases h.symm.trans e
  exact effect

theorem EnvEffect.of_exec {i : Instr} {t : State} (env : i.port = .environment) (h : exec i s = .next t) :
    EnvEffect s t := by
  obtain ⟨t', e, effect⟩ := exec_env s i env
  cases h.symm.trans e
  exact effect

theorem FireEffect.of_fire {a : Action} {t : State} (h : fire a s = .next t) : FireEffect s a t := by
  cases a with
  | hostDeadline =>
    simp only [fire, deadline] at h
    split at h <;> cases h
    case h_1 held => exact .endsPulse held
    case h_2 held => exact .edgeTimeout held
    case h_3 held => exact .readyTimeout held
  | rangeSample => cases h; exact .samples
  | rangeRetry => cases h; exact .retries
  | rangeHostTrig => cases h; exact .measures
  | rangeTrigEnd => cases h; exact .trigEnds
  | rangeEchoTimeout => cases h; exact .noEcho
  | btnPoll => cases h; exact .pollsButtons
  | adcPoll =>
    simp only [fire] at h
    split at h <;> cases h
    case h_1 flight => exact .pollsAdc flight
  | regTick =>
    simp only [fire] at h
    split at h
    case isTrue running => cases h; exact .ticks (s.regRunning_iff.1 running)
    case isFalse => cases h
  | flowIdle => cases h; exact .flowStops

end

/-- The induction over a step: what taking a choice or a frame keeps, and each effect, every step keeps. -/
theorem step_keeps {P : State → Prop} {s t : State} (h : step s = .next t) (init : P s)
    (outside : ∀ {s : State} (o : Outside), P s → P { s with outside := o })
    (host : ∀ {s t : State}, s.cfg.wellFormed = true → s.port = .idle → HostEffect s t → P s → P t)
    (env : ∀ {s t : State}, s.cfg.wellFormed = true → EnvEffect s t → P s → P t)
    (fires : ∀ {s t : State} {a : Action} {due : Nat}, s.cfg.wellFormed = true → s.timers.get a = some due →
      due ≤ s.now → FireEffect (s.cancel a) a t → P s → P t)
    (illegal : ∀ {s : State}, P s → P (s.reply .illegal [])) : P t := by
  obtain ⟨legal, o, none | refused | ⟨i, port, idle, run⟩ | ⟨i, port, run⟩ | ⟨a, due, pending, isDue, fired⟩⟩ := step_cases h
  · exact none ▸ outside o init
  · exact refused ▸ illegal (outside o init)
  · exact host (s := { s with outside := o }) legal idle (.of_exec port run) (outside o init)
  · exact env (s := { s with outside := o }) legal (.of_exec port run) (outside o init)
  · exact fires (s := { s with outside := o }) legal pending isDue (.of_fire fired) (outside o init)

end Sys2Proof.Machine

/-! SUPPORT. What no step changes and what only one kind of step changes: the wiring and the time, and the statements about
them. -/

namespace Sys2Proof.Machine

/-! ### The wiring (R35, R36, R49) -/

theorem State.SameWiring.refl (s : State) : s.SameWiring s := ⟨rfl, rfl, fun _ => ⟨rfl, fun _ => ⟨rfl, rfl⟩⟩⟩

theorem State.SameWiring.of_same {s t : State} (cfg : t.cfg = s.cfg) (pins : t.pins = s.pins) : s.SameWiring t := by
  refine ⟨cfg, by rw [pins], fun p => ?_⟩
  have pin : t.pin p = s.pin p := by rw [State.pin, State.pin, pins]
  rw [pin]
  exact ⟨rfl, fun _ => ⟨rfl, rfl⟩⟩

theorem State.SameWiring.trans {s t u : State} (h : s.SameWiring t) (h' : t.SameWiring u) : s.SameWiring u := by
  obtain ⟨cfg, length, pins⟩ := h
  obtain ⟨cfg', length', pins'⟩ := h'
  refine ⟨cfg'.trans cfg, length'.trans length, fun p => ?_⟩
  obtain ⟨owner, wiring⟩ := pins p
  obtain ⟨owner', wiring'⟩ := pins' p
  refine ⟨owner'.trans owner, fun owned => ?_⟩
  obtain ⟨dir, edgeMode⟩ := wiring owned
  obtain ⟨dir', edgeMode'⟩ := wiring' (owner ▸ owned)
  exact ⟨dir'.trans dir, edgeMode'.trans edgeMode⟩

/-- Writing a pin keeps the wiring when the pin written does; a pin that does not exist is not written. -/
theorem State.SameWiring.setPin {s : State} {p : Nat} {x : Pin} (same : (s.pin p).SameWiring x) :
    s.SameWiring (s.setPin p x) := by
  by_cases exist : p < s.pins.length
  · refine ⟨rfl, by simp, fun q => ?_⟩
    rw [s.pin_setPin p q x exist]
    split
    case isTrue here => exact here ▸ same
    case isFalse => exact ⟨rfl, fun _ => ⟨rfl, rfl⟩⟩
  · rw [s.setPin_out p x (Nat.not_lt.1 exist)]
    exact .refl s

theorem State.SameWiring.pinOut (s : State) (p : Nat) (l : Bool) : s.SameWiring (s.pinOut p l) :=
  .setPin ⟨rfl, fun _ => ⟨rfl, rfl⟩⟩

theorem State.SameWiring.setLevel (s : State) (p : Nat) (l : Bool) :
    s.SameWiring (s.setPin p { s.pin p with inLevel := l }) := .setPin ⟨rfl, fun _ => ⟨rfl, rfl⟩⟩

theorem HostEffect.sameWiring {s t : State} (h : HostEffect s t) : s.SameWiring t := by
  cases h with
  | writesPin o same => exact .setPin same
  | pulses pin level width => exact .pinOut s pin.toNat (bitOf level)
  | asksVoltage | asksBar => exact .of_same (by simp) (by simp)
  | _ => exact .of_same rfl rfl

theorem EnvEffect.sameWiring {s t : State} (h : EnvEffect s t) : s.SameWiring t := by
  cases h with
  | setsLevel p l => exact .setLevel s p l
  | dispatches p l ev => exact (State.SameWiring.setLevel s p l).trans (.of_same (by simp) (by simp))
  | _ => exact .of_same rfl rfl

theorem FireEffect.sameWiring {s t : State} {a : Action} (h : FireEffect s a t) : s.SameWiring t := by
  cases h with
  | @endsPulse pin level => exact .pinOut s pin.toNat (!bitOf level)
  | samples | retries | measures => exact .pinOut s s.cfg.pinTrig true
  | trigEnds => exact .pinOut s s.cfg.pinTrig false
  | noEcho | pollsButtons | pollsAdc | ticks => exact .of_same (by simp) (by simp)
  | _ => exact .of_same rfl rfl

/-- Settles O56: only a pin's write touches the wiring, and of an owned pin no write touches it. -/
theorem stepKeepsWiring : Obligations.StepKeepsWiring := by
  intro s t h
  refine step_keeps (P := s.SameWiring) h (.refl s) ?outside ?host ?env ?fires ?illegal
  case outside => exact fun o kept => kept.trans (.of_same rfl rfl)
  case host => exact fun _ _ effect kept => kept.trans effect.sameWiring
  case env => exact fun _ effect kept => kept.trans effect.sameWiring
  case fires => exact fun _ _ _ effect kept => (kept.trans (.of_same rfl rfl)).trans effect.sameWiring
  case illegal => exact fun kept => kept.trans (.of_same rfl rfl)

/-! ### Time (R30, R470) -/

theorem FireEffect.now {s t : State} {a : Action} (h : FireEffect s a t) : t.now = s.now := by
  cases h with
  | noEcho | pollsButtons | pollsAdc | ticks => simp
  | _ => rfl

theorem exec_now {s t : State} {i : Instr} (notTime : ∀ x, i ≠ .envTime x) (h : exec i s = .next t) : t.now = s.now :=
  (exec_touches notTime h).1

theorem acceptHost_now {s t : State} (h : acceptHost s = .next t) : t.now = s.now := by
  unfold acceptHost at h
  split at h
  · cases h; rfl
  · cases h; rfl
  · simp only at h
    split at h
    case h_1 decoded =>
      refine (exec_now (fun x isTime => ?_) h :)
      have port := decodeOn_port decoded
      rw [isTime] at port
      cases port
    case h_2 => cases h; rfl
    case h_3 => cases h

theorem takeTimed_now {s t : State} {a : Action} (h : takeTimed a s = .next t) : t.now = s.now := by
  unfold takeTimed at h
  split at h
  · cases h; rfl
  · split at h
    · exact (FireEffect.of_fire h).now
    · cases h; rfl

/-- An environment frame either leaves the time or is an admissible ENV.TIME. -/
theorem takeEnv_now {s t : State} (h : takeEnv s = .next t) : t.now = s.now ∨
    ∃ (x : U64) (rest : List Frame), s.outside.envIn = encode (.envTime x) :: rest ∧ s.admits x.toNat = true ∧
      t = { s with now := x.toNat, outside := { s.outside with envIn := rest } } := by
  unfold takeEnv at h
  split at h
  · cases h; exact .inl rfl
  · rename_i f rest waiting
    simp only at h
    split at h
    case h_2 => cases h; exact .inl rfl
    case h_3 => cases h
    case h_1 i decoded =>
      by_cases isTime : ∃ x, i = .envTime x
      · obtain ⟨x, rfl⟩ := isTime
        obtain ⟨frame, -⟩ := decodeThenEncode _ _ _ decoded
        simp only [exec, execEnvTime, Host.Outcome.next.injEq] at h
        split at h <;> subst h
        case isTrue admits => exact .inr ⟨x, rest, frame ▸ waiting, admits, rfl⟩
        case isFalse => exact .inl rfl
      · exact .inl (exec_now (fun x e => isTime ⟨x, e⟩) h :)

theorem State.now_lt_of_admits {s : State} {t : Nat} (h : s.admits t = true) : s.now < t := by
  simp only [State.admits, Bool.and_eq_true, decide_eq_true_eq] at h
  exact h.1

/-- Settles O19: no other instruction and no timed action writes `now`. -/
theorem timeChangesOnlyByEnvTime : Obligations.TimeChangesOnlyByEnvTime := by
  intro s t h
  by_cases legal : s.cfg.wellFormed = true
  case neg => cases h.symm.trans (if_neg legal)
  cases pick : s.nextPick.1 with
  | host =>
    rw [step_of_pick legal pick] at h
    exact .inl (acceptHost_now (s := { s with outside := s.nextPick.2.outside }) h)
  | timed a =>
    rw [step_of_pick legal pick] at h
    exact .inl (takeTimed_now (s := { s with outside := s.nextPick.2.outside }) h)
  | env =>
    rw [step_of_pick legal pick] at h
    refine (takeEnv_now h).imp_right ?_
    rintro ⟨x, rest, waiting, admits, rfl⟩
    exact ⟨rfl, x, rest, s.nextPick_envIn.symm.trans waiting, State.now_lt_of_admits admits, rfl⟩

end Sys2Proof.Machine

/-! SUPPORT. The units' fields stay legal (R32, R38, R41, R44, R48): what each operation keeps of the PWM, the notification
queue, the decoder, the stopwatch and the buttons, and the statements about every step. -/

namespace Sys2Proof.Machine

/-! ### What the ADC master keeps -/

/-- `P` does not see the ADC's own state and traffic, nor the end of a host command, and a reading of the button unit
keeps it. -/
structure AdcInvariant (P : State → Prop) : Prop where
  traffic : ∀ {s : State} (adc : Adc) (timers : Timers) (o : Outside) (b : List BusOp), P s →
    P { s with adc := adc, timers := timers, outside := o, bus := b }
  complete : ∀ {s : State} (st : Status) (rs : List Val), P s → P (s.complete st rs)
  polling : ∀ {s : State} (b : Bool), P s → P { s with btn := { s.btn with polling := b } }
  apply : ∀ {s : State} (v : Real64), s.cfg.wellFormed = true → P s → P (s.applyMask (ladder s.cfg.ladderTable v))

section
variable {P : State → Prop} (inv : AdcInvariant P) {s : State} (legal : s.cfg.wellFormed = true)
include inv legal

theorem AdcInvariant.ladderDone (v : Real64) (h : P s) : P (s.ladderDone v) :=
  inv.apply (s := { s with btn := { s.btn with polling := false } }) v legal (inv.polling false h)

theorem AdcInvariant.deliver (req : AdcReq) (st : Status) (v : Real64) (h : P s) : P (s.deliver req st v) := by
  cases req with
  | host => exact inv.complete _ _ h
  | press => exact inv.complete _ _ h
  | btn => exact inv.ladderDone legal v h

theorem AdcInvariant.startNext (l : List (BitVec 2 × AdcReq)) (h : P s) : P (s.startNext l) := by
  induction l generalizing s with
  | nil => exact inv.traffic _ _ _ _ h
  | cons r l ih =>
    rw [State.startNext_cons]
    split
    · exact inv.traffic (s := s) _ _ _ _ h
    · refine ih (by simpa using legal) (inv.deliver ?_ _ _ _ (inv.traffic (s := s) _ _ _ _ h))
      exact legal

theorem AdcInvariant.finish (req : AdcReq) (st : Status) (v : Real64) (h : P s) : P (s.finish req st v) :=
  inv.startNext (by simpa using legal) _
    (inv.deliver (s := { s with adc := { s.adc with phase := .idle } }) legal req st v (inv.traffic (s := s) _ _ _ _ h))

theorem AdcInvariant.request (ch : BitVec 2) (req : AdcReq) (h : P s) : P (s.request ch req) := by
  unfold State.request
  split
  · exact inv.startNext legal _ h
  · exact inv.traffic _ _ _ _ h

omit legal in
theorem AdcInvariant.readReg (ptr : Byte) (h : P s) : P (s.readReg ptr).2 := by
  rw [State.readReg_frame]
  exact inv.traffic _ _ _ _ h

theorem AdcInvariant.poll (req : AdcReq) (t0 : Nat) (h : P s) : P (s.poll req t0) := by
  have read := inv.readReg ptrConfig h
  have cfg := s.readReg_cfg ptrConfig
  unfold State.poll
  split
  case h_1 first => rw [first] at read cfg; exact inv.finish (by rwa [cfg]) _ _ _ read
  case h_2 config s1 first =>
    rw [first] at read cfg
    simp only at read cfg
    have read' := inv.readReg ptrConversion read
    have cfg' := s1.readReg_cfg ptrConversion
    split
    · split
      case h_1 second => rw [second] at read' cfg'; exact inv.finish (by rwa [cfg', cfg]) _ _ _ read'
      case h_2 second => rw [second] at read' cfg'; exact inv.finish (by rwa [cfg', cfg]) _ _ _ read'
    · split
      · exact inv.finish (by rwa [cfg]) _ _ _ read
      · exact inv.traffic _ _ _ _ read

theorem AdcInvariant.ladderPoll (h : P s) : P s.ladderPoll := by
  unfold State.ladderPoll
  split
  · exact h
  · have asking := inv.polling true h
    simp only
    split
    · exact inv.ladderDone (s := { s with btn := { s.btn with polling := true } }) legal _ asking
    · exact inv.request (s := { s with btn := { s.btn with polling := true } }) legal _ _ asking

theorem AdcInvariant.btnPoll (pins : P (s.applyMask s.pinMask)) (h : P s) : P s.btnPoll := by
  unfold State.btnPoll
  split
  · exact inv.traffic _ _ _ _ pins
  · exact inv.ladderPoll (s := s.schedule .btnPoll (s.now + s.cfg.btnPollUs)) legal (inv.traffic _ _ _ _ h)

end

/-! ### The PWM (R38, R281 to R284) -/

theorem State.PwmLegal.of_same {s t : State} (h : s.PwmLegal) (cfg : t.cfg = s.cfg) (pwm : t.pwm = s.pwm) :
    t.PwmLegal := by
  unfold State.PwmLegal
  rw [cfg, pwm]
  exact h

/-- `pwmset` of a number sets a fraction in [0, 1] and its ticks. -/
theorem State.PwmLegal.pwmSet {s : State} (format : s.cfg.realFmt.legal = true) (h : s.PwmLegal) {x : Real64}
    (number : realNaN x = false) : (s.pwmSet x).PwmLegal := by
  obtain ⟨divisor, divisorMax, range, -, -, -⟩ := h
  obtain ⟨low, high⟩ := pwmFrac_spec format number
  exact ⟨divisor, divisorMax, range, (onTicks_spec low high).1, low, high⟩

theorem realNaN_gated (s : State) {drive : Real64} (number : realNaN drive = false) : realNaN (s.gated drive) = false := by
  have gate : realNaN (if s.reg.power then drive else zero64) = false := by
    split
    · exact number
    · decide
  exact realNaN_clamp gate (by decide) (by decide)

/-- A tick sets the PWM to a number, in each of its three ends (R431, R432, R437). -/
theorem State.regTick_pwm (s : State) : ∃ x, realNaN x = false ∧ s.regTick.pwm = (s.pwmSet x).pwm := by
  unfold State.regTick
  simp only
  split
  · exact ⟨s.gated zero64, realNaN_gated s (by decide), rfl⟩
  · split
    case isTrue => exact ⟨zero64, by decide, rfl⟩
    case isFalse number =>
      refine ⟨s.gated _, realNaN_gated s ?_, rfl⟩
      rw [realNaN_round]
      exact decide_eq_false number

theorem HostEffect.pwmLegal {s t : State} (format : s.cfg.realFmt.legal = true) (effect : HostEffect s t)
    (h : s.PwmLegal) : t.PwmLegal := by
  have ⟨divisor, divisorMax, range, value, low, high⟩ := h
  cases effect with
  | asksVoltage | asksBar => exact .of_same h (by simp) (by simp)
  | setsDuty finite => exact .pwmSet format h (realNaN_of_finite finite)
  | restartsReg | stopsReg => exact .pwmSet format h (by decide : realNaN zero64 = false)
  | @setsRange r positive =>
    exact ⟨divisor, divisorMax, Nat.pos_of_ne_zero fun e => positive (BitVec.eq_of_toNat_eq e),
      (onTicks_spec low high).1, low, high⟩
  | @setsDivisor d positive small =>
    exact ⟨Nat.pos_of_ne_zero fun e => positive (BitVec.eq_of_toNat_eq e), small, range, value, low, high⟩
  | _ => exact h

theorem EnvEffect.pwmLegal {s t : State} (effect : EnvEffect s t) (h : s.PwmLegal) : t.PwmLegal := by
  cases effect with
  | dispatches => exact .of_same h (by simp) (by simp)
  | _ => exact h

theorem FireEffect.pwmLegal {s t : State} {a : Action} (format : s.cfg.realFmt.legal = true)
    (effect : FireEffect s a t) (h : s.PwmLegal) : t.PwmLegal := by
  cases effect with
  | noEcho | pollsButtons | pollsAdc => exact .of_same h (by simp) (by simp)
  | ticks =>
    obtain ⟨x, number, pwm⟩ := s.regTick_pwm
    exact .of_same (.pwmSet format h number) (by simp [State.pwmSet]) pwm
  | _ => exact h

/-! ### The notification queue (R48, R462, R465) -/

theorem State.QueueLegal.of_same {s t : State} (h : s.QueueLegal) (cfg : t.cfg = s.cfg) (ntf : t.ntf = s.ntf) :
    t.QueueLegal := by
  unfold State.QueueLegal
  rw [cfg, ntf]
  exact h

theorem State.QueueLegal.emit {s : State} (h : s.QueueLegal) (n : Ntf) : (s.emit n).QueueLegal :=
  ⟨NtfUnit.emit_length _ _ _ h.1, (NtfUnit.emit_enable s.cfg.ntfDepth s.ntf n).symm ▸ h.2⟩

theorem State.QueueLegal.applyButton {s : State} (h : s.QueueLegal) (m : U32) (i : Nat) :
    (s.applyButton m i).QueueLegal := by
  unfold State.applyButton
  split
  · exact h
  · exact State.QueueLegal.emit h _

theorem State.QueueLegal.applyMask {s : State} (h : s.QueueLegal) (m : U32) : (s.applyMask m).QueueLegal := by
  have buttons : ∀ l : List Nat, (l.foldl (fun s i => s.applyButton m i) s).QueueLegal := by
    intro l
    induction l generalizing s with
    | nil => exact h
    | cons i l ih => exact ih (h.applyButton m i)
  exact buttons _

theorem queueLegal_adcInvariant : AdcInvariant State.QueueLegal where
  traffic _ _ _ _ h := h
  complete _ _ h := h
  polling _ h := h
  apply _ _ h := h.applyMask _

theorem State.QueueLegal.flowEdge {s : State} (h : s.QueueLegal) (ts : U32) : (s.flowEdge ts).QueueLegal := by
  have start : (s.flowCount.flowStart ts).QueueLegal := by
    unfold State.flowStart
    split
    · exact h
    · exact State.QueueLegal.emit h _
  unfold State.flowEdge State.flowTarget
  simp only
  split
  · exact State.QueueLegal.emit start _
  · exact start

theorem State.QueueLegal.dispatch {s : State} (h : s.QueueLegal) (ev : EdgeEvent) : (s.dispatch ev).QueueLegal := by
  have owner : (s.ownerHandler ev).QueueLegal := by
    unfold State.ownerHandler
    split
    · exact h
    · exact h.of_same (by simp) (by simp)
    · exact h.flowEdge ev.ts
    all_goals exact h
  have waited : ((s.ownerHandler ev).waitEdgeDone ev).QueueLegal := owner.of_same (by simp) (by simp)
  unfold State.dispatch State.notifyEdge
  split
  · exact waited.emit _
  · exact waited

theorem HostEffect.queueLegal {s t : State} (legal : s.cfg.wellFormed = true) (effect : HostEffect s t)
    (h : s.QueueLegal) : t.QueueLegal := by
  have ⟨length, enable⟩ := h
  cases effect with
  | asksVoltage => exact queueLegal_adcInvariant.request (by exact legal) _ _ h
  | asksBar => exact queueLegal_adcInvariant.request (by exact legal) _ _ h
  | pops queue => exact ⟨by rw [queue, List.length_cons] at length; exact Nat.le_of_succ_le length, enable⟩
  | masks allowed => exact ⟨length, allowed⟩
  | _ => exact h

theorem EnvEffect.queueLegal {s t : State} (effect : EnvEffect s t) (h : s.QueueLegal) : t.QueueLegal := by
  cases effect with
  | dispatches p l ev => exact State.QueueLegal.dispatch (s := s.setPin p { s.pin p with inLevel := l }) h ev
  | _ => exact h

theorem FireEffect.queueLegal {s t : State} {a : Action} (legal : s.cfg.wellFormed = true)
    (effect : FireEffect s a t) (h : s.QueueLegal) : t.QueueLegal := by
  cases effect with
  | noEcho | ticks => exact h.of_same (by simp) (by simp)
  | pollsButtons => exact queueLegal_adcInvariant.btnPoll legal (h.applyMask _) h
  | pollsAdc => exact queueLegal_adcInvariant.poll legal _ _ h
  | flowStops => exact State.QueueLegal.emit h _
  | _ => exact h

/-! ### The decoder's accumulator (R41, R313) -/

/-- Fewer bits than a frame of `n` has, in the word's low bits. -/
def Temp.AccumulatorLegal (n : Nat) (t : Temp) : Prop := t.bitCount < n ∧ t.word.toNat < 2 ^ t.bitCount

theorem Temp.AccumulatorLegal.restart {n : Nat} {t u : Temp} (h : t.AccumulatorLegal n) (count : u.bitCount = 0)
    (word : u.word = 0) : u.AccumulatorLegal n := by
  obtain ⟨below, -⟩ := h
  refine ⟨by omega, ?_⟩
  rw [count, word]
  decide

theorem Temp.AccumulatorLegal.shiftIn {c : Config} {t : Temp} (h : t.AccumulatorLegal c.tempFrameBits) (bit : Bool)
    (ts : U32) : (t.shiftIn c bit ts).AccumulatorLegal c.tempFrameBits := by
  unfold Temp.shiftIn
  simp only
  split
  · exact h.restart rfl rfl
  case isFalse more =>
    obtain ⟨below, small⟩ := h
    refine ⟨by simp only at more ⊢; omega, ?_⟩
    have shifted : t.word.toNat * 2 + bit.toNat < 2 ^ (t.bitCount + 1) := by
      have := bit.toNat_le
      rw [pow_succ]
      omega
    calc (BitVec.ofNat 32 ((t.word.toNat * 2 + bit.toNat) % 2 ^ c.tempFrameBits)).toNat
      _ ≤ (t.word.toNat * 2 + bit.toNat) % 2 ^ c.tempFrameBits := by
        rw [BitVec.toNat_ofNat]
        exact Nat.mod_le ..
      _ ≤ t.word.toNat * 2 + bit.toNat := Nat.mod_le ..
      _ < 2 ^ (t.bitCount + 1) := shifted

theorem Temp.AccumulatorLegal.fall {c : Config} {t : Temp} (h : t.AccumulatorLegal c.tempFrameBits) (ts : U32) :
    (t.fall c ts).AccumulatorLegal c.tempFrameBits := by
  have cleared : Temp.AccumulatorLegal c.tempFrameBits { t with lastRise := none } := h
  unfold Temp.fall
  simp only
  split
  · exact cleared.restart rfl rfl
  · exact cleared.shiftIn true ts
  · exact cleared.shiftIn false ts

theorem State.DecoderLegal.of_same {s t : State} (h : s.DecoderLegal) (cfg : t.cfg = s.cfg) (temp : t.temp = s.temp) :
    t.DecoderLegal := by
  unfold State.DecoderLegal
  rw [cfg, temp]
  exact h

theorem State.DecoderLegal.dispatch {s : State} (h : s.DecoderLegal) (ev : EdgeEvent) : (s.dispatch ev).DecoderLegal := by
  have owner : (s.ownerHandler ev).DecoderLegal := by
    unfold State.ownerHandler
    split
    · unfold State.tempEdge
      cases ev.level with
      | true => exact h
      | false => exact Temp.AccumulatorLegal.fall h ev.ts
    · exact h.of_same (by simp) (by simp)
    · rw [State.flowEdge_frame]
      exact h
    all_goals exact h
  exact owner.of_same (by simp [State.dispatch]) (by simp [State.dispatch])

theorem HostEffect.temp {s t : State} (effect : HostEffect s t) : t.temp = s.temp := by
  cases effect with
  | asksVoltage | asksBar => simp
  | _ => rfl

theorem EnvEffect.decoderLegal {s t : State} (effect : EnvEffect s t) (h : s.DecoderLegal) : t.DecoderLegal := by
  cases effect with
  | dispatches p l ev => exact State.DecoderLegal.dispatch (s := s.setPin p { s.pin p with inLevel := l }) h ev
  | _ => exact h

theorem FireEffect.temp {s t : State} {a : Action} (effect : FireEffect s a t) : t.temp = s.temp := by
  cases effect with
  | noEcho | pollsButtons | pollsAdc | ticks => simp
  | _ => rfl

/-! ### The stopwatch (R32, R231, R232) -/

theorem State.ClockLegal.of_same {s t : State} (h : s.ClockLegal) (now : t.now = s.now) (clk : t.clk = s.clk) :
    t.ClockLegal := by
  unfold State.ClockLegal
  rw [now, clk]
  exact h

theorem HostEffect.clockLegal {s t : State} (effect : HostEffect s t) (h : s.ClockLegal) : t.ClockLegal := by
  have ⟨started, order, stopped⟩ := h
  cases effect with
  | asksVoltage | asksBar => exact .of_same h (by simp) (by simp)
  | startsClock => exact ⟨le_refl s.now, fun idle => Bool.noConfusion idle, stopped⟩
  | stopsClock => exact ⟨started, fun _ => started, le_refl s.now⟩
  | _ => exact h

theorem EnvEffect.clockLegal {s t : State} (effect : EnvEffect s t) (h : s.ClockLegal) : t.ClockLegal := by
  have ⟨started, order, stopped⟩ := h
  cases effect with
  | dispatches => exact .of_same h (by simp) (by simp)
  | passes admits =>
    have later := (State.now_lt_of_admits admits).le
    exact ⟨started.trans later, order, stopped.trans later⟩
  | _ => exact h

theorem FireEffect.clockLegal {s t : State} {a : Action} (effect : FireEffect s a t) (h : s.ClockLegal) :
    t.ClockLegal := by
  cases effect with
  | noEcho | pollsButtons | pollsAdc | ticks => exact .of_same h (by simp) (by simp)
  | _ => exact h

theorem FireEffect.cfg {s t : State} {a : Action} (effect : FireEffect s a t) : t.cfg = s.cfg := effect.sameWiring.1

theorem HostEffect.cfg {s t : State} (effect : HostEffect s t) : t.cfg = s.cfg := effect.sameWiring.1

/-- Settles O53: each unit's fields are kept by every effect. -/
theorem stepKeepsUnitsLegal : Obligations.StepKeepsUnitsLegal := by
  intro s t init h
  refine step_keeps (P := fun s => s.PwmLegal ∧ s.QueueLegal ∧ s.DecoderLegal ∧ s.ClockLegal) h init
    (fun _ legal => legal) ?host ?env ?fires (fun legal => legal)
  case host =>
    rintro s t legal - effect ⟨pwm, queue, decoder, clock⟩
    exact ⟨effect.pwmLegal (legal_of_wellFormed legal) pwm, effect.queueLegal legal queue,
      decoder.of_same effect.cfg effect.temp, effect.clockLegal clock⟩
  case env =>
    rintro s t - effect ⟨pwm, queue, decoder, clock⟩
    exact ⟨effect.pwmLegal pwm, effect.queueLegal queue, effect.decoderLegal decoder, effect.clockLegal clock⟩
  case fires =>
    rintro s t a due legal - - effect ⟨pwm, queue, decoder, clock⟩
    exact ⟨effect.pwmLegal (s := s.cancel a) (legal_of_wellFormed legal) pwm,
      effect.queueLegal (s := s.cancel a) legal queue, decoder.of_same effect.cfg effect.temp,
      effect.clockLegal (s := s.cancel a) clock⟩

/-! ### The buttons (R44, R390 to R393) -/

theorem State.ButtonsLegal.of_same {s t : State} (h : s.ButtonsLegal) (cfg : t.cfg = s.cfg) (btn : t.btn = s.btn) :
    t.ButtonsLegal := by
  unfold State.ButtonsLegal
  rw [cfg, btn]
  exact h

theorem State.ButtonsLegal.applyMask {s : State} (h : s.ButtonsLegal) {m : U32} (small : m.toNat < 2 ^ s.cfg.nbtn) :
    (s.applyMask m).ButtonsLegal := by
  obtain ⟨-, full⟩ := h
  rw [State.applyMask_eq]
  exact ⟨small, (length_stampChanges ..).trans full⟩

theorem State.pinMask_lt (s : State) : s.pinMask.toNat < 2 ^ s.cfg.nbtn := by
  rw [State.pinMask_eq, BitVec.toNat_ofNat]
  exact (Nat.mod_le ..).trans_lt (lowSum_lt ..)

/-- The nearest entry is one of the table. -/
theorem nearest_lt {v : Rat} {table : List Real64} {i j : Nat} {d : Rat} (h : nearest v table i = some (j, d)) :
    j < i + table.length := by
  induction table generalizing i j d with
  | nil => cases h
  | cons x rest ih =>
    unfold nearest at h
    rw [List.length_cons]
    split at h
    · obtain ⟨rfl, -⟩ : i = j ∧ _ := by simpa using h
      omega
    case h_2 k e later =>
      have := ih later
      split at h
      · obtain ⟨rfl, -⟩ : k = j ∧ _ := by simpa using h
        omega
      · obtain ⟨rfl, -⟩ : i = j ∧ _ := by simpa using h
        omega

/-- A ladder answers no button, or an entry of its table, which has at most `2^NBTN` (R10, R392). -/
theorem ladder_lt {c : Config} (legal : c.wellFormed = true) (v : Real64) :
    (ladder c.ladderTable v).toNat < 2 ^ c.nbtn := by
  unfold ladder
  split
  case h_2 => exact Nat.two_pow_pos _
  case h_1 tol j d _ found =>
    split
    case isFalse => exact Nat.two_pow_pos _
    case isTrue =>
      have inTable : j < 0 + c.ladderTable.length := nearest_lt found
      obtain ⟨-, -, -, -, -, ok, -⟩ := (wellFormed_iff c).1 legal
      have fits : c.ladderTable.length ≤ 2 ^ c.nbtn := by
        simp only [Config.ladderOk, Bool.or_eq_true, Bool.and_eq_true, decide_eq_true_eq, List.isEmpty_iff] at ok
        rcases ok with ⟨-, none⟩ | ⟨⟨-, most⟩, -⟩
        · simp [none]
        · exact most
      rw [BitVec.toNat_ofNat]
      exact (Nat.mod_le ..).trans_lt (by omega)

theorem buttonsLegal_adcInvariant : AdcInvariant State.ButtonsLegal where
  traffic _ _ _ _ h := h
  complete _ _ h := h
  polling _ h := h
  apply v legal h := h.applyMask (ladder_lt legal v)

/-- Settles O54: only a poll of the buttons and the end of their conversion apply a mask, of which both the pins' and the
ladder's are small enough. -/
theorem stepKeepsButtonsLegal : Obligations.StepKeepsButtonsLegal := by
  intro s t _ init h
  refine step_keeps (P := State.ButtonsLegal) h init (fun _ legal => legal) ?host ?env ?fires (fun legal => legal)
  case host =>
    intro s t legal _ effect buttons
    cases effect with
    | asksVoltage | asksBar => exact buttonsLegal_adcInvariant.request (by exact legal) _ _ buttons
    | _ => exact buttons
  case env =>
    intro s t _ effect buttons
    cases effect with
    | dispatches => exact buttons.of_same (by simp) (by simp)
    | _ => exact buttons
  case fires =>
    intro s t a due legal _ _ effect buttons
    have buttons : (s.cancel a).ButtonsLegal := buttons
    have legal : (s.cancel a).cfg.wellFormed = true := legal
    generalize s.cancel a = s at *
    cases effect with
    | noEcho | ticks => exact buttons.of_same (by simp) (by simp)
    | pollsButtons => exact buttonsLegal_adcInvariant.btnPoll legal (buttons.applyMask s.pinMask_lt) buttons
    | pollsAdc => exact buttonsLegal_adcInvariant.poll legal _ _ buttons
    | _ => exact buttons

end Sys2Proof.Machine

/-! SUPPORT. The schedule (R39, R40, R255, R431, R470): what each effect keeps of the due times, of the host's deadline, of the
conversion's poll and of the regulator's tick, and the statements that every step keeps them and none faults. -/

namespace Sys2Proof.Machine

/-! ### Due times (R470) -/

theorem State.NoOverdue.touches {l : List Action} {s t : State} (h : s.NoOverdue) (touch : Touches l s t) :
    t.NoOverdue := by
  obtain ⟨now, timers⟩ := touch
  intro a due pending
  rw [now]
  rcases timers a with same | ⟨-, cleared | ⟨d, later, set⟩⟩
  · exact h a due (same ▸ pending)
  · rw [cleared] at pending; cases pending
  · rw [set] at pending; cases pending; exact later

theorem cancel_touches (s : State) (a : Action) : Touches [a] s (s.cancel a) :=
  .set (a := a) (due := none) rfl rfl (by simp) (by simp)

theorem HostEffect.touches {s t : State} (effect : HostEffect s t) : Touches Action.all s t := by
  cases effect with
  | pulses | awaitsEdge | awaitsSample => exact .set (a := .hostDeadline) rfl rfl (by simp) (by simp)
  | asksVoltage | asksBar =>
    exact Touches.trans (.of_eq rfl rfl) ((State.request_touches_lifts _ _ _).1.mono (by simp))
  | measures | awaitsMeasurement =>
    exact .set (a := .rangeHostTrig) (due := some s.startTime) rfl rfl (by simp) (by simpa using s.now_le_startTime)
  | startsReg | restartsReg => exact .set (a := .regTick) (due := some s.now) rfl rfl (by simp) (by simp)
  | stopsReg => exact .set (a := .regTick) (due := none) rfl rfl (by simp) (by simp)
  | _ => exact .of_eq rfl rfl

/-- A dispatch behind a pin's write touches what a dispatch touches. -/
theorem setPin_dispatch_touches_lifts (s : State) (p : Nat) (x : Pin) (ev : EdgeEvent) :
    Touches [.hostDeadline, .rangeHostTrig, .rangeSample, .rangeRetry, .rangeEchoTimeout, .flowIdle] s
      ((s.setPin p x).dispatch ev) ∧ Lifts s ((s.setPin p x).dispatch ev) := by
  obtain ⟨touches, lifts⟩ := (s.setPin p x).dispatch_touches_lifts ev
  exact ⟨Touches.trans (.of_eq rfl rfl) touches, Lifts.trans (.of_eq rfl rfl) lifts⟩

/-- An admissible time passes no due time. -/
theorem State.NoOverdue.passes {s : State} {t : Nat} (admits : s.admits t = true) :
    State.NoOverdue { s with now := t } := by
  simp only [State.admits, Bool.and_eq_true, decide_eq_true_eq, List.all_eq_true] at admits
  obtain ⟨-, each⟩ := admits
  intro a due pending
  have bound := each a (Action.mem_all a)
  have pending : s.timers.get a = some due := pending
  rw [pending] at bound
  simp only [Bool.and_eq_true, decide_eq_true_eq] at bound
  exact bound.2

theorem EnvEffect.noOverdue {s t : State} (effect : EnvEffect s t) (h : s.NoOverdue) : t.NoOverdue := by
  cases effect with
  | dispatches p l ev => exact h.touches (setPin_dispatch_touches_lifts s p _ ev).1
  | passes admits => exact .passes admits
  | _ => exact h

theorem FireEffect.fire_eq {s t : State} {a : Action} (effect : FireEffect s a t) : fire a s = .next t := by
  cases effect with
  | endsPulse held | edgeTimeout held | readyTimeout held => simp only [fire, deadline, held]
  | pollsAdc flight => simp only [fire, flight]
  | ticks running => exact fire_regTick_of_running running
  | _ => rfl

/-! ### The host's deadline (R40) -/

theorem State.HoldSound.lifts {s t : State} (h : s.HoldSound) (lifts : Lifts s t) : t.HoldSound := by
  rcases lifts with ⟨port, deadline⟩ | ⟨idle, cleared⟩
  · unfold State.HoldSound
    rw [port, deadline]
    exact h
  · unfold State.HoldSound
    rw [idle]
    exact cleared

theorem State.HoldSound.deadline_none {s : State} (h : s.HoldSound) (idle : s.port = .idle) :
    s.timers.hostDeadline = none := by
  unfold State.HoldSound at h
  rwa [idle] at h

/-- A command that holds an IDLE port without a deadline leaves none pending. -/
theorem State.HoldSound.hold {s : State} (h : s.HoldSound) (idle : s.port = .idle) (op : HeldOp) :
    (s.hold op).HoldSound := ⟨h.deadline_none idle, fun deadline => absurd deadline (by simp)⟩

theorem HostEffect.holdSound {s t : State} (idle : s.port = .idle) (effect : HostEffect s t) (h : s.HoldSound) :
    t.HoldSound := by
  cases effect with
  | pulses | awaitsEdge | awaitsSample => exact ⟨rfl, fun _ => rfl⟩
  | asksVoltage ch => exact (h.hold idle _).lifts (State.request_touches_lifts _ _ _).2
  | asksBar => exact (h.hold idle _).lifts (State.request_touches_lifts _ _ _).2
  | measures => exact h.hold idle .measure
  | awaitsMeasurement => exact h.hold idle .ready
  | _ => exact h

theorem EnvEffect.holdSound {s t : State} (effect : EnvEffect s t) (h : s.HoldSound) : t.HoldSound := by
  cases effect with
  | dispatches p l ev => exact h.lifts (setPin_dispatch_touches_lifts s p _ ev).2
  | _ => exact h

/-- The deadline's own action ends the hold; every other one leaves the deadline alone or ends the hold with it. -/
theorem FireEffect.holdSound {s t : State} {a : Action} (effect : FireEffect (s.cancel a) a t) (h : s.HoldSound) :
    t.HoldSound := by
  by_cases deadline : a = .hostDeadline
  · subst deadline
    cases effect <;> rfl
  · exact h.lifts ((cancel_lifts s deadline).trans (fire_lifts effect.fire_eq))

/-! ### The conversion's poll (R255, R258) -/

theorem State.AdcSound.of_same {s t : State} (h : s.AdcSound) (cfg : t.cfg = s.cfg) (adc : t.adc = s.adc)
    (poll : t.timers.adcPoll = s.timers.adcPoll) : t.AdcSound := by
  unfold State.AdcSound
  rw [cfg, adc, poll]
  exact h

theorem State.deliver_adcPoll (s : State) (req : AdcReq) (st : Status) (v : Real64) :
    (s.deliver req st v).timers.adcPoll = s.timers.adcPoll := by
  cases req with
  | host => rfl
  | press => rfl
  | btn => simp [State.deliver]

/-- Starting the next request leaves a poll exactly for the one that started. -/
theorem State.startNext_adcSound (l : List (BitVec 2 × AdcReq)) {s : State} (idle : s.adc.phase = .idle)
    (unpolled : s.timers.adcPoll = none) : (s.startNext l).AdcSound := by
  induction l generalizing s with
  | nil => simp [State.AdcSound, State.startNext, idle, unpolled]
  | cons r l ih =>
    rw [State.startNext_cons]
    split
    · simp [State.AdcSound, Timers.set]
    · exact ih (by simp) (by rw [State.deliver_adcPoll]; exact unpolled)

theorem State.finish_adcSound {s : State} (req : AdcReq) (st : Status) (v : Real64)
    (unpolled : s.timers.adcPoll = none) : (s.finish req st v).AdcSound :=
  State.startNext_adcSound _ (by simp) (by rw [State.deliver_adcPoll]; exact unpolled)

theorem State.request_adcSound {s : State} (h : s.AdcSound) (ch : BitVec 2) (req : AdcReq) :
    (s.request ch req).AdcSound := by
  unfold State.request
  unfold State.AdcSound at h
  split
  case h_1 idle =>
    rw [idle] at h
    exact State.startNext_adcSound _ idle h.1
  case h_2 flight =>
    rw [flight] at h
    simpa [State.AdcSound, flight] using h

theorem State.ladderPoll_adcSound {s : State} (h : s.AdcSound) : s.ladderPoll.AdcSound := by
  unfold State.ladderPoll
  split
  · exact h
  · simp only
    split
    · exact h.of_same (by simp) (by simp) (by simp)
    · exact State.request_adcSound (s := { s with btn := { s.btn with polling := true } }) h _ _

theorem State.btnPoll_adcSound {s : State} (h : s.AdcSound) : s.btnPoll.AdcSound := by
  unfold State.btnPoll
  split
  · exact h.of_same (by simp) (by simp) (by simp [Timers.set])
  · exact State.ladderPoll_adcSound (s := s.schedule .btnPoll (s.now + s.cfg.btnPollUs)) h

/-- A poll ends the conversion, or is repeated before its timeout has passed. -/
theorem State.poll_adcSound {s : State} {ch : BitVec 2} {req : AdcReq} {t0 : Nat}
    (flight : s.adc.phase = .converting ch req t0) (unpolled : s.timers.adcPoll = none) :
    (s.poll req t0).AdcSound := by
  have frame := s.readReg_frame ptrConfig
  unfold State.poll
  split
  case h_1 s1 first =>
    rw [first] at frame
    exact State.finish_adcSound _ _ _ (by rw [show s1 = _ from frame]; exact unpolled)
  case h_2 config s1 first =>
    rw [first] at frame
    have unpolled1 : s1.timers.adcPoll = none := by rw [show s1 = _ from frame]; exact unpolled
    have frame' := s1.readReg_timers ptrConversion
    split
    · split
      case h_1 second => rw [second] at frame'; exact State.finish_adcSound _ _ _ (by rw [frame']; exact unpolled1)
      case h_2 second => rw [second] at frame'; exact State.finish_adcSound _ _ _ (by rw [frame']; exact unpolled1)
    · split
      · exact State.finish_adcSound _ _ _ unpolled1
      case isFalse early =>
        rw [show s1 = _ from frame] at early ⊢
        simp only [State.AdcSound, State.schedule_adc, flight]
        exact ⟨_, rfl, by simp only at early; simp only [State.schedule_cfg]; omega⟩

theorem HostEffect.adcSound {s t : State} (effect : HostEffect s t) (h : s.AdcSound) : t.AdcSound := by
  cases effect with
  | asksVoltage ch => exact State.request_adcSound (s := s.hold (.getVoltage ch)) h _ _
  | asksBar => exact State.request_adcSound (s := s.hold .getBar) h _ _
  | _ => exact h

theorem EnvEffect.adcSound {s t : State} (effect : EnvEffect s t) (h : s.AdcSound) : t.AdcSound := by
  cases effect with
  | dispatches p l ev =>
    have poll := (setPin_dispatch_touches_lifts s p { s.pin p with inLevel := l } ev).1.get (a := .adcPoll) (by simp)
    exact h.of_same (by simp) (by simp) poll
  | _ => exact h

theorem FireEffect.adc {s t : State} {a : Action} (effect : FireEffect s a t) (notPoll : a ≠ .adcPoll)
    (notButtons : a ≠ .btnPoll) : t.adc = s.adc := by
  cases effect with
  | noEcho | ticks => simp
  | pollsAdc => exact absurd rfl notPoll
  | pollsButtons => exact absurd rfl notButtons
  | _ => rfl

/-- The three ends of taking a timed action: the poll's, the buttons', and the others', which do not see the ADC. -/
theorem FireEffect.adcSound {s t : State} {a : Action} (effect : FireEffect (s.cancel a) a t)
    (touch : Touches (touched a) (s.cancel a) t) (h : s.AdcSound) : t.AdcSound := by
  by_cases poll : a = .adcPoll
  · subst poll
    cases effect with
    | pollsAdc flight => exact State.poll_adcSound flight rfl
  by_cases buttons : a = .btnPoll
  · subst buttons
    cases effect with
    | pollsButtons => exact State.btnPoll_adcSound (s := s.cancel .btnPoll) h
  have notTouched : Action.adcPoll ∉ touched a := by cases a <;> simp [touched] at poll buttons ⊢
  have timer : t.timers.get .adcPoll = s.timers.get .adcPoll := by
    rw [touch.get notTouched, State.cancel_timers, Timers.get_set, if_neg (Ne.symm poll)]
  exact h.of_same effect.cfg (effect.adc poll buttons) timer

/-! ### The regulator's tick (R431, R434, R436) -/

theorem State.RegSound.of_same {s t : State} (h : s.RegSound) (reg : t.reg = s.reg)
    (tick : t.timers.regTick = s.timers.regTick) : t.RegSound := by
  unfold State.RegSound
  rw [reg, tick]
  exact h

theorem HostEffect.regSound {s t : State} (effect : HostEffect s t) (h : s.RegSound) : t.RegSound := by
  cases effect with
  | asksVoltage | asksBar =>
    exact h.of_same (by simp) ((State.request_touches_lifts _ _ _).1.get (a := .regTick) (by simp))
  | startsReg | restartsReg => exact (rfl : some s.now = some s.now)
  | stopsReg => exact (rfl : (none : Option Nat) = none)
  | _ => exact h

theorem EnvEffect.regSound {s t : State} (effect : EnvEffect s t) (h : s.RegSound) : t.RegSound := by
  cases effect with
  | dispatches p l ev =>
    exact h.of_same (by simp)
      ((setPin_dispatch_touches_lifts s p { s.pin p with inLevel := l } ev).1.get (a := .regTick) (by simp))
  | _ => exact h

/-- A tick schedules the next one at `nextDue`, or stops the regulator (R431, R437). -/
theorem State.regTick_regSound {s : State} (running : s.reg.state = .running) : s.regTick.RegSound := by
  unfold State.regTick
  simp only
  split
  · simp [State.RegSound, running, Timers.set]
  · split
    · simp [State.RegSound, Timers.set]
    · simp [State.RegSound, running, Timers.set]

theorem FireEffect.reg {s t : State} {a : Action} (effect : FireEffect s a t) (notTick : a ≠ .regTick) :
    t.reg = s.reg := by
  cases effect with
  | noEcho | pollsButtons | pollsAdc => simp
  | ticks => exact absurd rfl notTick
  | _ => rfl

theorem FireEffect.regSound {s t : State} {a : Action} (effect : FireEffect (s.cancel a) a t)
    (touch : Touches (touched a) (s.cancel a) t) (h : s.RegSound) : t.RegSound := by
  by_cases tick : a = .regTick
  · subst tick
    cases effect with
    | ticks running => exact State.regTick_regSound running
  have notTouched : Action.regTick ∉ touched a := by cases a <;> simp [touched] at tick ⊢
  have timer : t.timers.get .regTick = s.timers.get .regTick := by
    rw [touch.get notTouched, State.cancel_timers, Timers.get_set, if_neg (Ne.symm tick)]
  exact h.of_same (effect.reg tick) timer

/-! ### The whole schedule -/

/-- The regulator that runs has its next tick no earlier than now. -/
theorem State.ScheduleSound.now_le_nextDue {s : State} (h : s.ScheduleSound) (running : s.reg.state = .running) :
    s.now ≤ s.reg.nextDue := by
  obtain ⟨noOverdue, -, -, reg⟩ := h
  unfold State.RegSound at reg
  rw [running] at reg
  exact noOverdue .regTick _ reg

/-- What a timed action touches, in a sound schedule. -/
theorem FireEffect.touches {s t : State} {a : Action} (effect : FireEffect (s.cancel a) a t) (h : s.ScheduleSound) :
    Touches (touched a) (s.cancel a) t := by
  refine fire_touches effect.fire_eq ?_
  rintro rfl
  cases effect with
  | ticks running => exact h.now_le_nextDue running

theorem HostEffect.scheduleSound {s t : State} (idle : s.port = .idle) (effect : HostEffect s t) (h : s.ScheduleSound) :
    t.ScheduleSound := by
  obtain ⟨noOverdue, hold, adc, reg⟩ := h
  exact ⟨noOverdue.touches effect.touches, effect.holdSound idle hold, effect.adcSound adc, effect.regSound reg⟩

theorem EnvEffect.scheduleSound {s t : State} (effect : EnvEffect s t) (h : s.ScheduleSound) : t.ScheduleSound := by
  obtain ⟨noOverdue, hold, adc, reg⟩ := h
  exact ⟨effect.noOverdue noOverdue, effect.holdSound hold, effect.adcSound adc, effect.regSound reg⟩

theorem FireEffect.scheduleSound {s t : State} {a : Action} (effect : FireEffect (s.cancel a) a t)
    (h : s.ScheduleSound) : t.ScheduleSound := by
  have touch := effect.touches h
  obtain ⟨noOverdue, hold, adc, reg⟩ := h
  exact ⟨(noOverdue.touches (cancel_touches s a)).touches touch, effect.holdSound hold, effect.adcSound touch adc,
    effect.regSound touch reg⟩

/-- Settles O48: each effect keeps the schedule sound. -/
theorem stepKeepsScheduleSound : Obligations.StepKeepsScheduleSound := fun _ _ init h =>
  step_keeps (P := State.ScheduleSound) h init (fun _ sound => sound) (fun _ idle effect => effect.scheduleSound idle)
    (fun _ effect => effect.scheduleSound) (fun _ _ _ effect => effect.scheduleSound) (fun sound => sound)

/-! ### No step faults (R623) -/

theorem next_ne_fault (s : State) (f : Fault) : (.next s : Result) ≠ .fault f := fun h => by cases h

theorem acceptHost_ne_fault (s : State) (f : Fault) : acceptHost s ≠ .fault f := by
  intro h
  unfold acceptHost at h
  split at h
  · cases h
  · cases h
  · simp only at h
    split at h
    case h_1 decoded =>
      obtain ⟨t, next, -⟩ := exec_host _ _ (decodeOn_port decoded)
      cases next.symm.trans h
    case h_2 => cases h
    case h_3 => cases h

theorem takeEnv_ne_fault (s : State) (f : Fault) : takeEnv s ≠ .fault f := by
  intro h
  unfold takeEnv at h
  split at h
  · cases h
  · simp only at h
    split at h
    case h_1 decoded =>
      obtain ⟨t, next, -⟩ := exec_env _ _ (decodeOn_port decoded)
      cases next.symm.trans h
    case h_2 => cases h
    case h_3 => cases h

/-- The deadline fires only for a hold that sets one. -/
theorem fire_hostDeadline_ne_fault {s : State} {due : Nat} (h : s.HoldSound) (pending : s.timers.hostDeadline = some due)
    (f : Fault) : fire .hostDeadline (s.cancel .hostDeadline) ≠ .fault f := by
  unfold State.HoldSound at h
  cases port : s.port with
  | idle => rw [port] at h; cases h.symm.trans pending
  | held hold =>
    rw [port] at h
    obtain ⟨deadline, allowed⟩ := h
    have allowed := allowed (by rw [← deadline, pending]; rfl)
    obtain ⟨op, tAcc, tDl⟩ := hold
    cases op with
    | pulse | waitEdge | ready =>
      simp only [fire, Machine.deadline, State.cancel_port, port]
      exact next_ne_fault _ f
    | getVoltage | measure | getBar => cases allowed

/-- The poll fires only with a conversion in flight. -/
theorem fire_adcPoll_ne_fault {s : State} {due : Nat} (h : s.AdcSound) (pending : s.timers.adcPoll = some due)
    (f : Fault) : fire .adcPoll (s.cancel .adcPoll) ≠ .fault f := by
  unfold State.AdcSound at h
  cases flight : s.adc.phase with
  | idle => rw [flight] at h; cases h.1.symm.trans pending
  | converting ch req t0 => simp [fire, flight]

/-- The tick fires only while RUNNING. -/
theorem fire_regTick_ne_fault {s : State} {due : Nat} (h : s.RegSound) (pending : s.timers.regTick = some due)
    (f : Fault) : fire .regTick (s.cancel .regTick) ≠ .fault f := by
  unfold State.RegSound at h
  cases state : s.reg.state with
  | stopped => rw [state] at h; cases h.symm.trans pending
  | running =>
    rw [fire_regTick_of_running (s := s.cancel .regTick) state]
    exact next_ne_fault _ f

theorem takeTimed_ne_fault {s : State} (h : s.ScheduleSound) (a : Action) (f : Fault) : takeTimed a s ≠ .fault f := by
  obtain ⟨-, hold, adc, reg⟩ := h
  unfold takeTimed
  split
  · exact next_ne_fault _ f
  case h_2 due pending =>
    split
    · cases a with
      | hostDeadline => exact fire_hostDeadline_ne_fault hold pending f
      | adcPoll => exact fire_adcPoll_ne_fault adc pending f
      | regTick => exact fire_regTick_ne_fault reg pending f
      | _ => exact next_ne_fault _ f
    · exact next_ne_fault _ f

/-- Settles O49: an instruction never faults, and a timed action only where a sound schedule has none pending. -/
theorem soundStepNeverFaults : Obligations.SoundStepNeverFaults := by
  intro s f sound h
  by_cases legal : s.cfg.wellFormed = true
  case neg => cases h.symm.trans (if_neg legal)
  rw [step_of_pick legal rfl] at h
  cases pick : s.nextPick.1 with
  | host => rw [pick] at h; exact acceptHost_ne_fault _ f h
  | env => rw [pick] at h; exact takeEnv_ne_fault _ f h
  | timed a =>
    rw [pick] at h
    exact takeTimed_ne_fault (s := { s with outside := s.nextPick.2.outside }) sound a f h

end Sys2Proof.Machine

/-! SUPPORT. The conversion requests and the holds (R40, R258, R261, R395): which command each operation can end, and the
statement that every step keeps the account of them. -/

namespace Sys2Proof.Machine

/-! ### The account of the requests -/

theorem requestsSound_iff (s : State) : s.RequestsSound ↔ ReqInv s s.adc.outstanding := Iff.rfl

/-- The port is held by ADC.GETVOLTAGE, or by PRESS.GETBAR, in `t` exactly when it is in `s`. -/
def SameConversionHold (s t : State) : Prop := t.awaitsVoltage = s.awaitsVoltage ∧ t.awaitsBar = s.awaitsBar

theorem SameConversionHold.trans {s t u : State} (h : SameConversionHold s t) (h' : SameConversionHold t u) :
    SameConversionHold s u := ⟨h'.1.trans h.1, h'.2.trans h.2⟩

theorem SameConversionHold.of_port {s t : State} (h : t.port = s.port) : SameConversionHold s t := by
  unfold SameConversionHold State.awaitsVoltage State.awaitsBar
  rw [h]
  exact ⟨rfl, rfl⟩

/-- A command that is no conversion has ended. -/
theorem SameConversionHold.of_idle {s t : State} (voltage : s.awaitsVoltage = false) (bar : s.awaitsBar = false)
    (idle : t.port = .idle) : SameConversionHold s t := by
  unfold SameConversionHold
  rw [voltage, bar]
  simp [State.awaitsVoltage, State.awaitsBar, idle]

theorem ReqInv.of_same {s t : State} (h : ReqInv s s.adc.outstanding) (cfg : t.cfg = s.cfg) (adc : t.adc = s.adc)
    (polling : t.btn.polling = s.btn.polling) (hold : SameConversionHold s t) : ReqInv t t.adc.outstanding := by
  unfold ReqInv at *
  rw [cfg, adc, polling, hold.1, hold.2]
  exact h

theorem State.awaits_of_idle {s : State} (idle : s.port = .idle) :
    s.awaitsVoltage = false ∧ s.awaitsBar = false ∧ s.awaitsRange = false := by
  simp [State.awaitsVoltage, State.awaitsBar, State.awaitsRange, idle]

/-! ### Which holds an operation ends -/

theorem State.waitEdgeDone_sameConversionHold (s : State) (ev : EdgeEvent) :
    SameConversionHold s (s.waitEdgeDone ev) := by
  unfold State.waitEdgeDone
  split
  case h_1 held =>
    split
    · exact .of_idle (by simp [State.awaitsVoltage, held]) (by simp [State.awaitsBar, held]) rfl
    · exact .of_port rfl
  case h_2 => exact .of_port rfl

theorem State.completeReady_sameConversionHold (s : State) : SameConversionHold s s.completeReady := by
  unfold State.completeReady
  split
  case h_1 held => exact .of_idle (by simp [State.awaitsVoltage, held]) (by simp [State.awaitsBar, held]) rfl
  case h_2 => exact .of_port rfl

theorem State.hostResult_sameConversionHold (s : State) (r : Real64) (timedOut : Bool) :
    SameConversionHold s (s.hostResult r timedOut) := by
  unfold State.hostResult
  split
  case h_1 held =>
    have ends {t : State} (idle : t.port = .idle) : SameConversionHold s t :=
      .of_idle (by simp [State.awaitsVoltage, held]) (by simp [State.awaitsBar, held]) idle
    split <;> exact ends rfl
  case h_2 held =>
    have ends {t : State} (idle : t.port = .idle) : SameConversionHold s t :=
      .of_idle (by simp [State.awaitsVoltage, held]) (by simp [State.awaitsBar, held]) idle
    split
    · exact ends rfl
    · split
      · exact ends rfl
      · exact .of_port rfl
  case h_3 => exact .of_port rfl

theorem State.samplerResult_sameConversionHold (s : State) (r : Real64) : SameConversionHold s (s.samplerResult r) := by
  unfold State.samplerResult
  split
  · exact SameConversionHold.trans (.of_port rfl) (s.publish r).completeReady_sameConversionHold
  · split
    · exact .of_port rfl
    · exact .of_port (by simp)

theorem State.measureDone_sameConversionHold (s : State) (r : Real64) (timedOut : Bool) :
    SameConversionHold s (s.measureDone r timedOut) := by
  unfold State.measureDone
  simp only
  split
  · exact SameConversionHold.trans (.of_port rfl) (State.hostResult_sameConversionHold _ r timedOut)
  · exact SameConversionHold.trans (.of_port rfl) (State.samplerResult_sameConversionHold _ r)

theorem State.echoEdge_sameConversionHold (s : State) (level : Bool) (ts : U32) :
    SameConversionHold s (s.echoEdge level ts) := by
  unfold State.echoEdge
  split
  · exact .of_port rfl
  · split
    · exact SameConversionHold.trans (.of_port rfl) (State.measureDone_sameConversionHold _ _ false)
    · exact .of_port rfl

theorem State.dispatch_sameConversionHold (s : State) (ev : EdgeEvent) : SameConversionHold s (s.dispatch ev) := by
  have owner : SameConversionHold s (s.ownerHandler ev) := by
    unfold State.ownerHandler
    split
    case h_2 => exact s.echoEdge_sameConversionHold ev.level ev.ts
    case h_3 => exact .of_port (by rw [State.flowEdge_frame])
    all_goals exact .of_port rfl
  exact (owner.trans (State.waitEdgeDone_sameConversionHold _ ev)).trans (.of_port (by simp [State.dispatch]))

/-! ### The requests, effect by effect -/

/-- A conversion command on an IDLE port adds its own request. -/
theorem ReqInv.hold {s : State} (h : ReqInv s s.adc.outstanding) (idle : s.port = .idle) :
    (∀ ch, ReqInv (s.hold (.getVoltage ch)) (.host :: s.adc.outstanding)) ∧
      ReqInv (s.hold .getBar) (.press :: s.adc.outstanding) := by
  obtain ⟨host, press, btn, pins⟩ := h
  obtain ⟨voltage, bar, -⟩ := State.awaits_of_idle idle
  rw [voltage] at host
  rw [bar] at press
  refine ⟨fun ch => ⟨?_, ?_, ?_, pins⟩, ?_, ?_, ?_, pins⟩ <;>
    simpa [State.awaitsVoltage, State.awaitsBar]

theorem HostEffect.requestsSound {s t : State} (idle : s.port = .idle) (effect : HostEffect s t) (adc : s.AdcSound)
    (h : s.RequestsSound) : t.RequestsSound := by
  obtain ⟨voltage, bar, -⟩ := State.awaits_of_idle idle
  have account := (requestsSound_iff s).1 h
  have holding {u : State} (cfg : u.cfg = s.cfg) (adc : u.adc = s.adc) (btn : u.btn = s.btn)
      (voltage' : u.awaitsVoltage = false) (bar' : u.awaitsBar = false) : u.RequestsSound :=
    account.of_same cfg adc (by rw [btn]) ⟨voltage'.trans voltage.symm, bar'.trans bar.symm⟩
  cases effect with
  | asksVoltage ch => exact (request_req ((account.hold idle).1 ch) (by exact adc)).1
  | asksBar => exact (request_req (account.hold idle).2 (by exact adc)).1
  | pulses | awaitsEdge | awaitsSample | measures | awaitsMeasurement => exact holding rfl rfl rfl rfl rfl
  | _ => exact h

theorem EnvEffect.requestsSound {s t : State} (effect : EnvEffect s t) (h : s.RequestsSound) : t.RequestsSound := by
  cases effect with
  | dispatches p l ev =>
    exact ReqInv.of_same h (by simp) (by simp) (by simp)
      (SameConversionHold.trans (.of_port rfl) (State.dispatch_sameConversionHold _ ev))
  | _ => exact h

/-- The button unit asks for a conversion only where none of its own is outstanding (R258, R390). -/
theorem State.RequestsSound.buttonRequest {s : State} (h : s.RequestsSound) (mode : s.cfg.btnMode = .ladder)
    (ready : s.btn.polling = false) :
    ReqInv { s with btn := { s.btn with polling := true } } (.btn :: s.adc.outstanding) := by
  obtain ⟨host, press, btn, -⟩ := h
  rw [ready] at btn
  refine ⟨?_, ?_, ?_, fun pins => absurd (mode.symm.trans pins) (by decide)⟩
  · exact (List.count_cons_of_ne (by decide)).trans host
  · exact (List.count_cons_of_ne (by decide)).trans press
  · exact List.count_cons_self.trans (congrArg (· + 1) btn)

theorem State.btnPoll_requestsSound {s : State} (adc : s.AdcSound) (h : s.RequestsSound) :
    s.btnPoll.RequestsSound := by
  unfold State.btnPoll
  split
  · exact ReqInv.of_same h (by simp) (by simp) (by rw [State.schedule_btn, State.applyMask_frame])
      (.of_port (by simp))
  case h_2 mode =>
    unfold State.ladderPoll
    split
    · exact h
    case isFalse ready =>
      simp only
      split
      · obtain ⟨host, press, btn, -⟩ := h
        rw [show s.btn.polling = false by simpa using ready] at btn
        rw [State.ladderDone_frame]
        exact ⟨host, press, btn, fun pins => absurd (mode.symm.trans pins) (by decide)⟩
      · exact (request_req (State.RequestsSound.buttonRequest
          (s := s.schedule .btnPoll (s.now + s.cfg.btnPollUs)) h mode (by simpa using ready)) (by exact adc)).1

theorem FireEffect.requestsSound {s t : State} {a : Action} (effect : FireEffect (s.cancel a) a t) (adc : s.AdcSound)
    (h : s.RequestsSound) : t.RequestsSound := by
  have account : ReqInv (s.cancel a) (s.cancel a).adc.outstanding := h
  cases effect with
  | endsPulse held | edgeTimeout held | readyTimeout held =>
    exact account.of_same rfl rfl rfl
      (.of_idle (by simp only [State.awaitsVoltage, held]) (by simp only [State.awaitsBar, held]) rfl)
  | noEcho => exact account.of_same (by simp) (by simp) (by simp) (State.measureDone_sameConversionHold _ _ _)
  | ticks => exact account.of_same (by simp) (by simp) (by simp) (.of_port (by simp))
  | pollsButtons => exact State.btnPoll_requestsSound (s := s.cancel .btnPoll) adc h
  | pollsAdc flight => exact (poll_req flight account rfl).1
  | _ => exact h

/-! ### The holds' bounds (R40) -/

theorem State.HoldTimed.lifts {s t : State} (h : s.HoldTimed) (cfg : t.cfg = s.cfg) (lifts : Lifts s t) :
    t.HoldTimed := by
  unfold State.HoldTimed
  rcases lifts with ⟨port, -⟩ | ⟨idle, -⟩
  · rw [port, cfg]
    exact h
  · rw [idle]
    trivial

theorem HostEffect.holdTimed {s t : State} (effect : HostEffect s t) (h : s.HoldTimed) : t.HoldTimed := by
  cases effect with
  | pulses | awaitsEdge => exact (rfl : (some _ : Option Nat).isSome = true)
  | awaitsSample mode => exact iff_of_true rfl mode
  | awaitsMeasurement mode => exact iff_of_false (by simp) (by rw [State.schedule_cfg, State.hold_cfg, mode]; decide)
  | measures mode => exact mode
  | asksVoltage ch =>
    exact State.HoldTimed.lifts (s := s.hold (.getVoltage ch)) trivial (by simp) (State.request_touches_lifts _ _ _).2
  | asksBar => exact State.HoldTimed.lifts (s := s.hold .getBar) trivial (by simp) (State.request_touches_lifts _ _ _).2
  | _ => exact h

theorem EnvEffect.holdTimed {s t : State} (effect : EnvEffect s t) (h : s.HoldTimed) : t.HoldTimed := by
  cases effect with
  | dispatches p l ev => exact h.lifts (by simp) (setPin_dispatch_touches_lifts s p _ ev).2
  | _ => exact h

theorem FireEffect.holdTimed {s t : State} {a : Action} (effect : FireEffect (s.cancel a) a t) (h : s.HoldTimed) :
    t.HoldTimed := State.HoldTimed.lifts (s := s.cancel a) h effect.cfg (fire_lifts effect.fire_eq)

/-- The invariants that the account of the requests rests on. -/
def State.HoldsServed (s : State) : Prop := s.ScheduleSound ∧ s.RequestsSound ∧ s.HoldTimed

theorem HostEffect.holdsServed {s t : State} (idle : s.port = .idle) (effect : HostEffect s t) (h : s.HoldsServed) :
    t.HoldsServed := by
  obtain ⟨sound, requests, timed⟩ := h
  exact ⟨effect.scheduleSound idle sound, effect.requestsSound idle sound.2.2.1 requests, effect.holdTimed timed⟩

theorem EnvEffect.holdsServed {s t : State} (effect : EnvEffect s t) (h : s.HoldsServed) : t.HoldsServed := by
  obtain ⟨sound, requests, timed⟩ := h
  exact ⟨effect.scheduleSound sound, effect.requestsSound requests, effect.holdTimed timed⟩

theorem FireEffect.holdsServed {s t : State} {a : Action} (effect : FireEffect (s.cancel a) a t) (h : s.HoldsServed) :
    t.HoldsServed := by
  obtain ⟨sound, requests, timed⟩ := h
  exact ⟨effect.scheduleSound sound, effect.requestsSound sound.2.2.1 requests, effect.holdTimed timed⟩

theorem State.Sound.holdsServed {s : State} (h : s.Sound) : s.HoldsServed := ⟨h.1, h.2.1, h.2.2.1⟩

/-- Settles O50: each effect keeps the account, which rests on the schedule. -/
theorem stepKeepsHoldsServed : Obligations.StepKeepsHoldsServed := fun _ _ sound h =>
  (step_keeps (P := State.HoldsServed) h sound.holdsServed (fun _ served => served)
    (fun _ idle effect => effect.holdsServed idle) (fun _ effect => effect.holdsServed)
    (fun _ _ _ effect => effect.holdsServed) (fun served => served)).2

end Sys2Proof.Machine

/-! SUPPORT. The range finder's loop (R341, R344, R346, R347, R349): the two modes' invariants, what starting, advancing and
ending a measurement do to them, and the statements that every step keeps them and that every hold is served. -/

namespace Sys2Proof.Machine

/-! ### The invariants, mode by mode -/

/-- In BACKGROUND mode exactly one next start is pending between two measurements, all the sampler's (R344). -/
def State.BackgroundLoop (s : State) : Prop :=
  s.timers.rangeHostTrig = none ∧ (s.range.phase ≠ .idle → s.range.req = .sampler) ∧
  ((s.timers.rangeSample.isSome ∨ s.timers.rangeRetry.isSome) ↔ s.range.phase = .idle) ∧
  (s.timers.rangeSample = none ∨ s.timers.rangeRetry = none)

/-- In POLL mode a measurement is pending or under way exactly while a command waits for it (R347, R349). -/
def State.PollLoop (s : State) : Prop :=
  s.timers.rangeSample = none ∧ s.timers.rangeRetry = none ∧ (s.range.phase ≠ .idle → s.range.req = .host) ∧
  (s.awaitsRange = true ↔ (s.timers.rangeHostTrig.isSome ∨ s.range.phase ≠ .idle)) ∧
  (s.timers.rangeHostTrig.isSome → s.range.phase = .idle)

/-- The loop of the mode in force. -/
def State.LoopOfMode (s : State) : Prop :=
  (s.cfg.rangeMode = .background → s.BackgroundLoop) ∧ (s.cfg.rangeMode = .poll → s.PollLoop)

theorem rangeLoop_iff (s : State) : s.RangeLoop ↔ s.MeasurementTimed ∧ s.LoopOfMode := by
  unfold State.RangeLoop State.LoopOfMode
  refine and_congr_right fun _ => ?_
  cases mode : s.cfg.rangeMode with
  | background => exact ⟨fun loop => ⟨fun _ => loop, nofun⟩, fun loops => loops.1 rfl⟩
  | poll => exact ⟨fun loop => ⟨nofun, fun _ => loop⟩, fun loops => loops.2 rfl⟩

/-- `t` has the measurement's owner, the pending starts and the waiting command of `s`, and measures exactly when `s` does. -/
structure SameStarts (s t : State) : Prop where
  cfg : t.cfg = s.cfg
  idle : t.range.phase = .idle ↔ s.range.phase = .idle
  req : t.range.req = s.range.req
  lastTrigger : t.range.lastTrigger = s.range.lastTrigger
  timers : ∀ a ∈ [Action.rangeSample, .rangeRetry, .rangeHostTrig], t.timers.get a = s.timers.get a
  awaits : s.cfg.rangeMode = .poll → t.awaitsRange = s.awaitsRange

section
variable {s t : State}

theorem SameStarts.loopOfMode (same : SameStarts s t) (h : s.LoopOfMode) : t.LoopOfMode := by
  have sample : t.timers.rangeSample = s.timers.rangeSample := same.timers .rangeSample (by simp)
  have retry : t.timers.rangeRetry = s.timers.rangeRetry := same.timers .rangeRetry (by simp)
  have hostTrig : t.timers.rangeHostTrig = s.timers.rangeHostTrig := same.timers .rangeHostTrig (by simp)
  unfold State.LoopOfMode State.BackgroundLoop State.PollLoop at *
  rw [sample, retry, hostTrig, same.cfg, same.req, ne_eq, same.idle]
  refine ⟨h.1, fun poll => ?_⟩
  rw [same.awaits poll]
  exact h.2 poll

theorem SameStarts.triggersSpaced (same : SameStarts s t) (h : s.TriggersSpaced) : t.TriggersSpaced := by
  intro a start due last pending trigger
  rw [same.timers a start] at pending
  rw [same.lastTrigger] at trigger
  rw [same.cfg]
  exact h a start due last pending trigger

theorem State.MeasurementTimed.of_same (h : s.MeasurementTimed) (phase : t.range.phase = s.range.phase)
    (trigEnd : t.timers.get .rangeTrigEnd = s.timers.get .rangeTrigEnd)
    (echo : t.timers.get .rangeEchoTimeout = s.timers.get .rangeEchoTimeout) : t.MeasurementTimed := by
  have trigEnd : t.timers.rangeTrigEnd = s.timers.rangeTrigEnd := trigEnd
  have echo : t.timers.rangeEchoTimeout = s.timers.rangeEchoTimeout := echo
  unfold State.MeasurementTimed
  rw [phase, trigEnd, echo]
  exact h

end

/-- The invariants of the range finder. -/
def State.RangeInv (s : State) : Prop := s.RangeLoop ∧ s.TriggersSpaced

theorem SameStarts.rangeInv {s t : State} (same : SameStarts s t) (h : s.RangeInv) (timed : t.MeasurementTimed) :
    t.RangeInv :=
  ⟨(rangeLoop_iff t).2 ⟨timed, same.loopOfMode ((rangeLoop_iff s).1 h.1).2⟩, same.triggersSpaced h.2⟩

/-- The range finder's five timed actions. -/
def rangeActions : List Action := [.rangeSample, .rangeRetry, .rangeHostTrig, .rangeTrigEnd, .rangeEchoTimeout]

/-- What leaves the measurement, its timed actions and the waiting command alone keeps the invariants. -/
theorem State.RangeInv.of_same {s t : State} (h : s.RangeInv) (cfg : t.cfg = s.cfg)
    (phase : t.range.phase = s.range.phase) (req : t.range.req = s.range.req)
    (lastTrigger : t.range.lastTrigger = s.range.lastTrigger)
    (timers : ∀ a ∈ rangeActions, t.timers.get a = s.timers.get a)
    (awaits : s.cfg.rangeMode = .poll → t.awaitsRange = s.awaitsRange) : t.RangeInv := by
  refine SameStarts.rangeInv ⟨cfg, by rw [phase], req, lastTrigger, fun a start => timers a ?_, awaits⟩ h
    (((rangeLoop_iff s).1 h.1).1.of_same phase (timers _ (by simp [rangeActions])) (timers _ (by simp [rangeActions])))
  simp only [List.mem_cons, List.not_mem_nil, or_false] at start
  rcases start with rfl | rfl | rfl <;> simp [rangeActions]

theorem Touches.rangeTimers {l : List Action} {s t : State} (touch : Touches l s t) (apart : ∀ a ∈ rangeActions, a ∉ l) :
    ∀ a ∈ rangeActions, t.timers.get a = s.timers.get a := fun a range => touch.get (apart a range)

/-! ### Pending starts (R346) -/

theorem State.startTime_spaced {s : State} {last : Nat} (trigger : s.range.lastTrigger = some last) :
    last + s.cfg.minTriggerIntervalUs ≤ s.startTime := by
  unfold State.startTime
  rw [trigger]
  exact le_max_right ..

theorem State.startTime_congr {s t : State} (cfg : t.cfg = s.cfg) (now : t.now = s.now)
    (lastTrigger : t.range.lastTrigger = s.range.lastTrigger) : t.startTime = s.startTime := by
  unfold State.startTime
  rw [cfg, now, lastTrigger]

/-- No start is pending, or only one at the start time. -/
theorem triggersSpaced_of_startTime {t : State}
    (starts : ∀ a ∈ [Action.rangeSample, .rangeRetry, .rangeHostTrig],
      t.timers.get a = none ∨ t.timers.get a = some t.startTime) : t.TriggersSpaced := by
  intro a start due last pending trigger
  rcases starts a start with none | spaced
  · rw [none] at pending; cases pending
  · rw [spaced] at pending; cases pending; exact State.startTime_spaced trigger

/-- A measurement starts on an idle range finder, nothing else pending, for the sampler or for the waiting command. -/
theorem State.measureStart_rangeInv {s : State} {req : RangeReq} (timed : s.MeasurementTimed)
    (idle : s.range.phase = .idle) (sample : s.timers.rangeSample = none) (retry : s.timers.rangeRetry = none)
    (hostTrig : s.timers.rangeHostTrig = none) (background : s.cfg.rangeMode = .background → req = .sampler)
    (poll : s.cfg.rangeMode = .poll → req = .host ∧ s.awaitsRange = true) : (s.measureStart req).RangeInv := by
  have noEcho : s.timers.rangeEchoTimeout = none := by
    obtain ⟨-, echo⟩ := timed
    simpa [idle] using echo
  refine ⟨(rangeLoop_iff _).2 ⟨?timed, fun mode => ?background, fun mode => ?poll⟩, triggersSpaced_of_startTime ?starts⟩
  case timed => exact ⟨iff_of_true rfl rfl, by simp [Timers.set, noEcho]⟩
  case background =>
    have req := background mode
    exact ⟨hostTrig, fun _ => req, by simp [Timers.set, sample, retry], .inl sample⟩
  case poll =>
    obtain ⟨req, awaits⟩ := poll mode
    exact ⟨sample, retry, fun _ => req, iff_of_true awaits (.inr (by simp)), by simp [Timers.set, hostTrig]⟩
  case starts =>
    intro a start
    simp only [List.mem_cons, List.not_mem_nil, or_false] at start
    rcases start with rfl | rfl | rfl
    · exact .inl sample
    · exact .inl retry
    · exact .inl hostTrig

/-! ### The end of a measurement (R345, R347, R349) -/

/-- The sampler schedules exactly one next start, at the start time. -/
theorem State.samplerResult_schedules (s : State) (r : Real64) :
    ∃ a, (a = .rangeSample ∨ a = .rangeRetry) ∧
      (∀ b, b ≠ .hostDeadline →
        (s.samplerResult r).timers.get b = if b = a then some s.startTime else s.timers.get b) ∧
      (s.samplerResult r).range.phase = s.range.phase ∧ (s.samplerResult r).range.req = s.range.req ∧
      (s.samplerResult r).range.lastTrigger = s.range.lastTrigger := by
  unfold State.samplerResult
  split
  · refine ⟨.rangeSample, .inl rfl, fun b notDeadline => ?_, by simp [State.publish], by simp [State.publish],
      by simp [State.publish]⟩
    have start : (s.publish r).completeReady.startTime = s.startTime :=
      State.startTime_congr (by simp [State.publish]) (by simp [State.publish]) (by simp [State.publish])
    rw [State.nextSample_timers, Timers.get_set, start,
      (s.publish r).completeReady_touches_lifts.1.get (by simpa using notDeadline)]
    rfl
  · split
    · exact ⟨.rangeRetry, .inr rfl, fun b _ => Timers.get_set .., rfl, rfl, rfl⟩
    · refine ⟨.rangeSample, .inl rfl, fun b _ => ?_, by simp, by simp, by simp⟩
      simp only [State.nextSample_timers, Timers.get_set, State.storedReal_timers]
      congr 2
      exact State.startTime_congr (by simp) (by simp) (by simp)

/-- A command that waits for a measurement ends, or asks for another one at the start time. -/
theorem State.hostResult_ends_or_schedules {s : State} (r : Real64) (timedOut : Bool) (awaits : s.awaitsRange = true) :
    ((s.hostResult r timedOut).range.phase = s.range.phase ∧
      (s.hostResult r timedOut).range.lastTrigger = s.range.lastTrigger) ∧
    (((s.hostResult r timedOut).awaitsRange = false ∧
        ∀ a, a ≠ .hostDeadline → (s.hostResult r timedOut).timers.get a = s.timers.get a) ∨
      ((s.hostResult r timedOut).awaitsRange = true ∧
        ∀ a, (s.hostResult r timedOut).timers.get a = if a = .rangeHostTrig then some s.startTime else s.timers.get a)) := by
  have ends {u : State} (st : Status) (rs : List Val) (timers : u.timers = s.timers) :
      (u.complete st rs).awaitsRange = false ∧
        ∀ a, a ≠ .hostDeadline → (u.complete st rs).timers.get a = s.timers.get a := by
    refine ⟨rfl, fun a notDeadline => ?_⟩
    rw [State.complete_timers, Timers.get_set, if_neg notDeadline, timers]
  unfold State.hostResult
  split
  case h_1 =>
    split
    · exact ⟨⟨rfl, rfl⟩, .inl (ends _ _ rfl)⟩
    · exact ⟨⟨rfl, rfl⟩, .inl (ends (u := s.publish r) _ _ rfl)⟩
  case h_2 =>
    split
    · exact ⟨⟨rfl, rfl⟩, .inl (ends (u := s.publish r) _ _ rfl)⟩
    · split
      · exact ⟨⟨rfl, rfl⟩, .inl (ends _ _ rfl)⟩
      · exact ⟨⟨rfl, rfl⟩, .inr ⟨awaits, fun a => Timers.get_set ..⟩⟩
  case h_3 notMeasure notReady =>
    unfold State.awaitsRange at awaits
    split at awaits
    · exact absurd (by assumption) (notMeasure _ _)
    · exact absurd (by assumption) (notReady _ _)
    · cases awaits

/-- Between measurements, with no timed action of the range finder pending. -/
structure State.RangeAtRest (s : State) : Prop where
  idle : s.range.phase = .idle
  trigEnd : s.timers.rangeTrigEnd = none
  echo : s.timers.rangeEchoTimeout = none
  hostTrig : s.timers.rangeHostTrig = none
  sample : s.timers.rangeSample = none
  retry : s.timers.rangeRetry = none

/-- In BACKGROUND mode the sampler's result leaves exactly one next start pending (R344). -/
theorem State.RangeAtRest.samplerResult {s : State} (rest : s.RangeAtRest) (mode : s.cfg.rangeMode = .background)
    (r : Real64) : (s.samplerResult r).RangeInv := by
  obtain ⟨idle, trigEnd, echo, hostTrig, sample, retry⟩ := rest
  obtain ⟨a, next, timers, phase, -, last⟩ := s.samplerResult_schedules r
  have start : (s.samplerResult r).startTime = s.startTime := State.startTime_congr (by simp) (by simp) last
  have noTrigEnd : (s.samplerResult r).timers.rangeTrigEnd = none := by
    rcases next with rfl | rfl <;> exact (timers .rangeTrigEnd (by simp)).trans trigEnd
  have noEcho : (s.samplerResult r).timers.rangeEchoTimeout = none := by
    rcases next with rfl | rfl <;> exact (timers .rangeEchoTimeout (by simp)).trans echo
  have noHostTrig : (s.samplerResult r).timers.rangeHostTrig = none := by
    rcases next with rfl | rfl <;> exact (timers .rangeHostTrig (by simp)).trans hostTrig
  have sample' := timers .rangeSample (by simp)
  have retry' := timers .rangeRetry (by simp)
  have idle' := phase.trans idle
  refine ⟨(rangeLoop_iff _).2 ⟨by simp [State.MeasurementTimed, noTrigEnd, noEcho, idle'],
    fun _ => ⟨noHostTrig, fun busy => absurd idle' busy, iff_of_true ?_ idle', ?_⟩,
    fun poll => absurd (mode.symm.trans (by simpa using poll)) (by decide)⟩, triggersSpaced_of_startTime ?_⟩
  · rcases next with rfl | rfl
    · exact .inl (congrArg Option.isSome sample')
    · exact .inr (congrArg Option.isSome retry')
  · rcases next with rfl | rfl
    · exact .inr (retry'.trans retry)
    · exact .inl (sample'.trans sample)
  · intro b isStart
    simp only [List.mem_cons, List.not_mem_nil, or_false] at isStart
    rw [start, timers b (by rcases isStart with rfl | rfl | rfl <;> decide)]
    split
    · exact .inr rfl
    · rcases isStart with rfl | rfl | rfl
      · exact .inl sample
      · exact .inl retry
      · exact .inl hostTrig

/-- In POLL mode the host's result ends the command, or leaves its next start pending (R347, R349). -/
theorem State.RangeAtRest.hostResult {s : State} (rest : s.RangeAtRest) (mode : s.cfg.rangeMode = .poll)
    (awaits : s.awaitsRange = true) (r : Real64) (timedOut : Bool) : (s.hostResult r timedOut).RangeInv := by
  obtain ⟨idle, trigEnd, echo, hostTrig, sample, retry⟩ := rest
  obtain ⟨⟨phase, last⟩, ends | schedules⟩ := State.hostResult_ends_or_schedules r timedOut awaits
  all_goals
    have idle' := phase.trans idle
  · obtain ⟨free, timers⟩ := ends
    have noTrigEnd := (timers .rangeTrigEnd (by simp)).trans trigEnd
    have noEcho := (timers .rangeEchoTimeout (by simp)).trans echo
    have noHostTrig := (timers .rangeHostTrig (by simp)).trans hostTrig
    have noSample := (timers .rangeSample (by simp)).trans sample
    have noRetry := (timers .rangeRetry (by simp)).trans retry
    simp only [Timers.get] at noTrigEnd noEcho noHostTrig noSample noRetry
    refine ⟨(rangeLoop_iff _).2 ⟨by simp [State.MeasurementTimed, noTrigEnd, noEcho, idle'],
      fun background => absurd (mode.symm.trans (by simpa using background)) (by decide),
      fun _ => ⟨noSample, noRetry, fun busy => absurd idle' busy, by simp [free, noHostTrig, idle'], fun _ => idle'⟩⟩,
      triggersSpaced_of_startTime ?_⟩
    simp [Timers.get, noHostTrig, noSample, noRetry]
  · obtain ⟨stillAwaits, timers⟩ := schedules
    have start : (s.hostResult r timedOut).startTime = s.startTime := State.startTime_congr (by simp) (by simp) last
    have noTrigEnd := (timers .rangeTrigEnd).trans trigEnd
    have noEcho := (timers .rangeEchoTimeout).trans echo
    have someHostTrig := timers .rangeHostTrig
    have noSample := (timers .rangeSample).trans sample
    have noRetry := (timers .rangeRetry).trans retry
    simp only [Timers.get, if_true] at noTrigEnd noEcho someHostTrig noSample noRetry
    refine ⟨(rangeLoop_iff _).2 ⟨by simp [State.MeasurementTimed, noTrigEnd, noEcho, idle'],
      fun background => absurd (mode.symm.trans (by simpa using background)) (by decide),
      fun _ => ⟨noSample, noRetry, fun busy => absurd idle' busy, by simp [stillAwaits, someHostTrig], fun _ => idle'⟩⟩,
      triggersSpaced_of_startTime ?_⟩
    simp [Timers.get, someHostTrig, noSample, noRetry, start]

/-- The end of a measurement whose own timed action is no longer pending. -/
theorem State.measureDone_rangeInv {s : State} (r : Real64) (timedOut : Bool) (measuring : s.range.phase ≠ .idle)
    (trigEnd : s.timers.rangeTrigEnd = none) (echo : s.timers.rangeEchoTimeout = none) (loop : s.LoopOfMode) :
    (s.measureDone r timedOut).RangeInv := by
  obtain ⟨background, poll⟩ := loop
  cases mode : s.cfg.rangeMode with
  | background =>
    obtain ⟨hostTrig, req, starts, -⟩ := background mode
    obtain ⟨sample, retry⟩ : s.timers.rangeSample = none ∧ s.timers.rangeRetry = none := by
      simpa [measuring] using starts
    have done : s.measureDone r timedOut =
        State.samplerResult { s with range := { s.range with phase := .idle } } r := by
      unfold State.measureDone
      simp only [req measuring]
    rw [done]
    exact State.RangeAtRest.samplerResult (s := { s with range := { s.range with phase := .idle } })
      ⟨rfl, trigEnd, echo, hostTrig, sample, retry⟩ mode r
  | poll =>
    obtain ⟨sample, retry, req, waits, pending⟩ := poll mode
    have hostTrig : s.timers.rangeHostTrig = none := by
      cases e : s.timers.rangeHostTrig with
      | none => rfl
      | some due => exact absurd (pending (by simp [e])) measuring
    have done : s.measureDone r timedOut =
        State.hostResult { s with range := { s.range with phase := .idle } } r timedOut := by
      unfold State.measureDone
      simp only [req measuring]
    rw [done]
    exact State.RangeAtRest.hostResult (s := { s with range := { s.range with phase := .idle } })
      ⟨rfl, trigEnd, echo, hostTrig, sample, retry⟩ mode (waits.2 (.inr measuring)) r timedOut

end Sys2Proof.Machine

/-! SUPPORT. The range finder's loop, effect by effect: the statements that every step keeps it (R341, R344, R346, R347,
R349) and that every hold has the timed action that serves it (R40, R623). -/

namespace Sys2Proof.Machine

/-! ### Holds and the commands that wait for the range finder -/

theorem State.awaitsRange_of_port {s t : State} (port : t.port = s.port) : t.awaitsRange = s.awaitsRange := by
  unfold State.awaitsRange
  rw [port]

theorem Lifts.awaitsRange_false {s t : State} (lifts : Lifts s t) (free : s.awaitsRange = false) :
    t.awaitsRange = false := by
  rcases lifts with ⟨port, -⟩ | ⟨idle, -⟩
  · rwa [State.awaitsRange_of_port port]
  · exact (State.awaits_of_idle idle).2.2

/-- A command that waits for a conversion does not wait for a measurement. -/
theorem ReqInv.awaitsRange_false {s : State} {req : AdcReq} {l : List AdcReq} (h : ReqInv s (req :: l))
    (command : req ≠ .btn) : s.awaitsRange = false := by
  obtain ⟨host, press, -, -⟩ := h
  have waits : s.awaitsVoltage = true ∨ s.awaitsBar = true := by
    cases req with
    | host =>
      cases e : s.awaitsVoltage with
      | true => exact .inl rfl
      | false => simp [e] at host
    | press =>
      cases e : s.awaitsBar with
      | true => exact .inr rfl
      | false => simp [e] at press
    | btn => exact absurd rfl command
  unfold State.awaitsVoltage State.awaitsBar at waits
  unfold State.awaitsRange
  split <;> simp_all

/-- A delivery ends no command that waits for a measurement. -/
theorem State.deliver_awaitsRange {s : State} {req : AdcReq} {l : List AdcReq} (h : ReqInv s (req :: l)) (st : Status)
    (v : Real64) : (s.deliver req st v).awaitsRange = s.awaitsRange := by
  cases req with
  | host => exact (h.awaitsRange_false (by decide)).symm
  | press => exact (h.awaitsRange_false (by decide)).symm
  | btn => exact State.awaitsRange_of_port (by simp [State.deliver])

theorem State.startNext_awaitsRange (l : List (BitVec 2 × AdcReq)) {s : State} (h : ReqInv s (l.map Prod.snd)) :
    (s.startNext l).awaitsRange = s.awaitsRange := by
  induction l generalizing s with
  | nil => rfl
  | cons r l ih =>
    obtain ⟨ch, req⟩ := r
    rw [State.startNext_cons]
    split
    · rfl
    · have account : ReqInv { s with
          adc := { s.adc with phase := .idle, queue := l }
          outside := s.outside.nextAck.2
          bus := s.bus ++ [.write s.cfg.adcAddr (ptrConfig :: bytes16 (adcConfigWord s.cfg ch)) false] }
          (req :: l.map Prod.snd) := h
      exact (ih (deliver_req _ _ account)).trans (State.deliver_awaitsRange account _ _)

theorem State.finish_awaitsRange {s : State} {req : AdcReq} (h : ReqInv s (req :: s.adc.queue.map Prod.snd))
    (st : Status) (v : Real64) : (s.finish req st v).awaitsRange = s.awaitsRange := by
  have account : ReqInv { s with adc := { s.adc with phase := .idle } } (req :: s.adc.queue.map Prod.snd) := h
  refine (State.startNext_awaitsRange _ ?_).trans (State.deliver_awaitsRange account st v)
  rw [State.deliver_adc]
  exact deliver_req st v account

theorem State.request_awaitsRange {s : State} {req : AdcReq} (h : ReqInv s (req :: s.adc.outstanding)) (ch : BitVec 2) :
    (s.request ch req).awaitsRange = s.awaitsRange := by
  unfold State.request
  split
  case h_1 idle =>
    refine State.startNext_awaitsRange _ ?_
    simpa [Adc.outstanding, idle] using h
  case h_2 => rfl

/-- A poll reads its registers, then ends the conversion or schedules the next poll (R255). -/
theorem State.poll_cases (s : State) (req : AdcReq) (t0 : Nat) : ∃ (o : Outside) (b : List BusOp),
    (∃ st v, s.poll req t0 = State.finish { s with outside := o, bus := b } req st v) ∨
      s.poll req t0 = State.schedule { s with outside := o, bus := b } .adcPoll (s.now + s.cfg.adcPollUs) := by
  have frame := s.readReg_frame ptrConfig
  unfold State.poll
  generalize s.readReg ptrConfig = read at frame
  obtain ⟨config, s1⟩ := read
  obtain ⟨o, b, rfl⟩ : ∃ o b, s1 = { s with outside := o, bus := b } := ⟨_, _, frame⟩
  cases config with
  | none => exact ⟨_, _, .inl ⟨_, _, rfl⟩⟩
  | some config =>
    simp only
    split
    · have frame := State.readReg_frame { s with outside := o, bus := b } ptrConversion
      generalize State.readReg { s with outside := o, bus := b } ptrConversion = read at frame
      obtain ⟨raw, s2⟩ := read
      obtain ⟨o, b, rfl⟩ : ∃ o b, s2 = { s with outside := o, bus := b } := ⟨_, _, frame⟩
      cases raw <;> exact ⟨_, _, .inl ⟨_, _, rfl⟩⟩
    · split
      · exact ⟨_, _, .inl ⟨_, _, rfl⟩⟩
      · exact ⟨_, _, .inr rfl⟩

theorem State.poll_awaitsRange {s : State} {ch : BitVec 2} {req : AdcReq} {t0 : Nat}
    (flight : s.adc.phase = .converting ch req t0) (h : s.RequestsSound) :
    (s.poll req t0).awaitsRange = s.awaitsRange := by
  have account : ReqInv s (req :: s.adc.queue.map Prod.snd) := by
    have := (requestsSound_iff s).1 h
    simpa [Adc.outstanding, flight] using this
  obtain ⟨o, b, ⟨st, v, ends⟩ | again⟩ := s.poll_cases req t0
  · rw [ends]
    exact State.finish_awaitsRange (s := { s with outside := o, bus := b }) account st v
  · rw [again]
    rfl

theorem State.btnPoll_awaitsRange {s : State} (h : s.RequestsSound) : s.btnPoll.awaitsRange = s.awaitsRange := by
  unfold State.btnPoll
  split
  · exact State.awaitsRange_of_port (by simp)
  case h_2 mode =>
    unfold State.ladderPoll
    split
    · rfl
    case isFalse ready =>
      simp only
      split
      · exact State.awaitsRange_of_port (by simp)
      · exact State.request_awaitsRange (State.RequestsSound.buttonRequest
          (s := s.schedule .btnPoll (s.now + s.cfg.btnPollUs)) h mode (by simpa using ready)) s.cfg.btnAdcCh

/-! ### The host commands -/

/-- While the port is IDLE no host measurement is pending or under way. -/
theorem State.PollLoop.idle {s : State} (h : s.PollLoop) (free : s.awaitsRange = false) :
    s.timers.rangeHostTrig = none ∧ s.range.phase = .idle := by
  obtain ⟨-, -, -, waits, -⟩ := h
  rw [free] at waits
  simpa using waits

/-- A command that waits for a measurement schedules its start (R347, R349). -/
theorem State.hostTrig_rangeInv {s : State} {op : HeldOp} (h : s.RangeInv) (mode : s.cfg.rangeMode = .poll)
    (free : s.awaitsRange = false) (waits : (s.hold op).awaitsRange = true) :
    ((s.hold op).schedule .rangeHostTrig s.startTime).RangeInv := by
  obtain ⟨loop, -⟩ := h
  obtain ⟨timed, -, poll⟩ := (rangeLoop_iff s).1 loop
  have poll := poll mode
  obtain ⟨-, idle⟩ := poll.idle free
  obtain ⟨sample, retry, req, -⟩ := poll
  refine ⟨(rangeLoop_iff _).2 ⟨timed, fun background => absurd (mode.symm.trans background) (by decide), fun _ =>
    ⟨sample, retry, req, iff_of_true waits (.inl rfl), fun _ => idle⟩⟩, triggersSpaced_of_startTime ?_⟩
  intro a start
  simp only [List.mem_cons, List.not_mem_nil, or_false] at start
  rcases start with rfl | rfl | rfl
  · exact .inl sample
  · exact .inl retry
  · exact .inr rfl

/-- What touches other timed actions only and leaves the range finder and the commands that wait for it alone. -/
theorem State.RangeInv.of_touches {l : List Action} {s t : State} (h : s.RangeInv) (touch : Touches l s t)
    (apart : ∀ a ∈ rangeActions, a ∉ l) (cfg : t.cfg = s.cfg) (range : t.range = s.range)
    (awaits : s.cfg.rangeMode = .poll → t.awaitsRange = s.awaitsRange) : t.RangeInv :=
  h.of_same cfg (by rw [range]) (by rw [range]) (by rw [range]) (touch.rangeTimers apart) awaits

theorem HostEffect.rangeInv {s t : State} (idle : s.port = .idle) (effect : HostEffect s t) (h : s.RangeInv) :
    t.RangeInv := by
  obtain ⟨-, -, free⟩ := State.awaits_of_idle idle
  cases effect with
  | asksVoltage ch =>
    have touches_lifts := State.request_touches_lifts (s.hold (.getVoltage ch)) (ch.setWidth 2) .host
    exact h.of_touches (Touches.trans (.of_eq rfl rfl) touches_lifts.1) (by decide) (by simp) (by simp) fun _ =>
      (touches_lifts.2.awaitsRange_false rfl).trans free.symm
  | asksBar =>
    have touches_lifts := State.request_touches_lifts (s.hold .getBar) s.cfg.pressAdcCh .press
    exact h.of_touches (Touches.trans (.of_eq rfl rfl) touches_lifts.1) (by decide) (by simp) (by simp) fun _ =>
      (touches_lifts.2.awaitsRange_false rfl).trans free.symm
  | measures mode => exact State.hostTrig_rangeInv h mode free rfl
  | awaitsMeasurement mode => exact State.hostTrig_rangeInv h mode free rfl
  | awaitsSample mode =>
    exact h.of_touches (l := [.hostDeadline]) (.set (a := .hostDeadline) rfl rfl (by simp) (by simp)) (by decide) rfl rfl
      fun poll => absurd (mode.symm.trans poll) (by decide)
  | pulses | awaitsEdge =>
    exact h.of_touches (l := [.hostDeadline]) (.set (a := .hostDeadline) rfl rfl (by simp) (by simp)) (by decide) rfl rfl
      fun _ => free.symm
  | startsReg | stopsReg =>
    exact h.of_touches (l := [.regTick]) (.set (a := .regTick) rfl rfl (by simp) (by simp)) (by decide) rfl rfl
      fun _ => rfl
  | restartsReg =>
    exact h.of_touches (l := [.regTick]) (.set (a := .regTick) (due := some s.now) rfl rfl (by simp) (by simp)) (by decide)
      rfl rfl fun _ => rfl
  | _ => exact h

/-! ### The environment's inputs -/

theorem State.echoEdge_rangeInv {s : State} (h : s.RangeInv) (level : Bool) (ts : U32) : (s.echoEdge level ts).RangeInv := by
  have loop := (rangeLoop_iff s).1 h.1
  obtain ⟨⟨trigEnd, -⟩, loop⟩ := loop
  unfold State.echoEdge
  split
  case isTrue rise =>
    obtain ⟨phase, -⟩ : s.range.phase = .waitRise ∧ level = true := by simpa using rise
    refine SameStarts.rangeInv (s := s) ⟨rfl, iff_of_false nofun (by simp [phase]), rfl, rfl, fun a start => ?_, fun _ => rfl⟩ h
      ⟨trigEnd.trans (iff_of_false (by simp [phase]) (by simp)), iff_of_true rfl (.inr rfl)⟩
    rw [State.schedule_timers, Timers.get_set, if_neg (by rintro rfl; simp at start)]
  case isFalse =>
    split
    case isTrue fall =>
      obtain ⟨phase, -⟩ : s.range.phase = .waitFall ∧ level = false := by simpa using fall
      have noTrigEnd : s.timers.rangeTrigEnd = none := by simpa [phase] using trigEnd
      exact State.measureDone_rangeInv (s := s.cancel .rangeEchoTimeout) _ _ (by simp [phase]) noTrigEnd rfl loop
    case isFalse => exact h

theorem State.waitEdgeDone_awaitsRange (s : State) (ev : EdgeEvent) :
    (s.waitEdgeDone ev).awaitsRange = s.awaitsRange := by
  unfold State.waitEdgeDone
  split
  case h_1 held =>
    split
    · simp [State.awaitsRange, held]
    · rfl
  case h_2 => rfl

theorem State.dispatch_rangeInv {s : State} (h : s.RangeInv) (ev : EdgeEvent) : (s.dispatch ev).RangeInv := by
  have owner : (s.ownerHandler ev).RangeInv := by
    unfold State.ownerHandler
    split
    case h_2 => exact State.echoEdge_rangeInv h ev.level ev.ts
    case h_3 =>
      rw [State.flowEdge_frame]
      exact h.of_touches (l := [.flowIdle]) (.set (a := .flowIdle) rfl rfl (by simp) (by simp)) (by decide) rfl rfl
        fun _ => rfl
    all_goals exact h
  have waited : ((s.ownerHandler ev).waitEdgeDone ev).RangeInv :=
    owner.of_touches (State.waitEdgeDone_touches_lifts _ ev).1 (by decide) (by simp) (by simp)
      fun _ => State.waitEdgeDone_awaitsRange _ ev
  unfold State.dispatch
  rw [State.notifyEdge_frame]
  exact waited

theorem EnvEffect.rangeInv {s t : State} (effect : EnvEffect s t) (h : s.RangeInv) : t.RangeInv := by
  cases effect with
  | dispatches p l ev => exact State.dispatch_rangeInv (s := s.setPin p { s.pin p with inLevel := l }) h ev
  | _ => exact h

/-! ### The timed actions -/

/-- A READY with a deadline waits in BACKGROUND mode (R349). -/
theorem State.background_of_readyDeadline {s : State} {tAcc due : Nat} {tDl : Option Nat} (hold : s.HoldSound)
    (timed : s.HoldTimed) (held : s.port = .held { op := .ready, tAcc := tAcc, tDl := tDl })
    (pending : s.timers.hostDeadline = some due) : s.cfg.rangeMode = .background := by
  unfold State.HoldSound at hold
  unfold State.HoldTimed at timed
  rw [held] at hold timed
  have deadline : s.timers.hostDeadline = tDl := hold.1
  exact timed.1 (by rw [← deadline, pending]; rfl)

/-- A start of the sampler is pending in BACKGROUND mode only, a host measurement's in POLL mode only, and the range
finder is idle. -/
theorem State.RangeInv.pendingStart {s : State} (h : s.RangeInv) :
    ((s.timers.rangeSample.isSome ∨ s.timers.rangeRetry.isSome) → s.cfg.rangeMode = .background ∧ s.range.phase = .idle ∧
      s.timers.rangeHostTrig = none) ∧
    (s.timers.rangeHostTrig.isSome → s.cfg.rangeMode = .poll ∧ s.range.phase = .idle ∧ s.timers.rangeSample = none ∧
      s.timers.rangeRetry = none ∧ s.awaitsRange = true) := by
  obtain ⟨-, background, poll⟩ := (rangeLoop_iff s).1 h.1
  cases mode : s.cfg.rangeMode with
  | background =>
    obtain ⟨hostTrig, -, starts, -⟩ := background mode
    exact ⟨fun pending => ⟨rfl, starts.1 pending, hostTrig⟩, fun pending => by simp [hostTrig] at pending⟩
  | poll =>
    obtain ⟨sample, retry, -, waits, idle⟩ := poll mode
    exact ⟨fun pending => by simp [sample, retry] at pending,
      fun pending => ⟨rfl, idle pending, sample, retry, waits.2 (.inl pending)⟩⟩

/-- A timed action of another unit. -/
theorem State.RangeInv.of_fired {s t : State} {a : Action} (h : s.RangeInv) (sound : s.ScheduleSound)
    (effect : FireEffect (s.cancel a) a t) (apart : ∀ b ∈ rangeActions, b ∉ a :: touched a)
    (range : t.range = s.range) (awaits : s.cfg.rangeMode = .poll → t.awaitsRange = s.awaitsRange) : t.RangeInv :=
  h.of_touches (((cancel_touches s a).mono (by simp)).trans ((effect.touches sound).mono (List.subset_cons_self ..)))
    apart effect.cfg range awaits

theorem FireEffect.rangeInv {s t : State} {a : Action} {due : Nat} (effect : FireEffect (s.cancel a) a t)
    (pending : s.timers.get a = some due) (served : s.HoldsServed) (h : s.RangeInv) : t.RangeInv := by
  obtain ⟨sound, requests, timed⟩ := served
  have ⟨_, hold, _, _⟩ := sound
  obtain ⟨starts, hostStart⟩ := h.pendingStart
  obtain ⟨measuring, loop⟩ := (rangeLoop_iff s).1 h.1
  have ⟨trigEnd, echo⟩ := measuring
  have fired := h.of_fired sound effect
  cases effect with
  | endsPulse held | edgeTimeout held =>
    rw [State.cancel_port] at held
    exact fired (by decide) rfl fun _ => by simp [State.awaitsRange, held]
  | readyTimeout held =>
    have background := State.background_of_readyDeadline hold timed held pending
    exact fired (by decide) rfl fun poll => absurd (background.symm.trans poll) (by decide)
  | pollsButtons =>
    exact fired (by decide) (by simp) fun _ => State.btnPoll_awaitsRange (s := s.cancel .btnPoll) requests
  | pollsAdc flight =>
    exact fired (by decide) (by simp) fun _ => State.poll_awaitsRange flight requests
  | ticks running =>
    exact fired (by decide) (by simp) fun _ => State.awaitsRange_of_port (by simp)
  | flowStops => exact fired (by decide) rfl fun _ => rfl
  | samples =>
    have pending : s.timers.rangeSample = some due := pending
    obtain ⟨mode, idle, hostTrig⟩ := starts (.inl (by simp [pending]))
    obtain ⟨-, -, -, one⟩ := loop.1 mode
    have retry : s.timers.rangeRetry = none := one.resolve_left (by simp [pending])
    exact State.measureStart_rangeInv
      (s := { s.cancel .rangeSample with range := { s.range with attempt := .first } }) measuring idle rfl retry
      hostTrig (fun _ => rfl) fun poll => absurd (mode.symm.trans poll) (by decide)
  | retries =>
    have pending : s.timers.rangeRetry = some due := pending
    obtain ⟨mode, idle, hostTrig⟩ := starts (.inr (by simp [pending]))
    obtain ⟨-, -, -, one⟩ := loop.1 mode
    have sample : s.timers.rangeSample = none := one.resolve_right (by simp [pending])
    exact State.measureStart_rangeInv (s := s.cancel .rangeRetry) measuring idle sample rfl hostTrig
      (fun _ => rfl) fun poll => absurd (mode.symm.trans poll) (by decide)
  | measures =>
    have pending : s.timers.rangeHostTrig = some due := pending
    obtain ⟨mode, idle, sample, retry, waits⟩ := hostStart (by simp [pending])
    exact State.measureStart_rangeInv (s := s.cancel .rangeHostTrig) measuring idle sample retry rfl
      (fun background => absurd (mode.symm.trans background) (by decide)) fun _ => ⟨rfl, waits⟩
  | trigEnds =>
    have pending : s.timers.rangeTrigEnd = some due := pending
    have phase : s.range.phase = .trig := trigEnd.1 (by simp [pending])
    refine SameStarts.rangeInv (s := s) ⟨rfl, iff_of_false nofun (by simp [phase]), rfl, rfl, fun b start => ?_,
      fun _ => rfl⟩ h ⟨iff_of_false nofun nofun, iff_of_true rfl (.inl rfl)⟩
    simp only [List.mem_cons, List.not_mem_nil, or_false] at start
    rcases start with rfl | rfl | rfl <;> rfl
  | noEcho =>
    have pending : s.timers.rangeEchoTimeout = some due := pending
    have phase : s.range.phase = .waitRise ∨ s.range.phase = .waitFall := echo.1 (by simp [pending])
    have noTrigEnd : s.timers.rangeTrigEnd = none := by
      rcases phase with phase | phase <;> simpa [phase] using trigEnd
    refine State.measureDone_rangeInv (s := s.cancel .rangeEchoTimeout) _ _ ?_ noTrigEnd rfl loop
    rcases phase with phase | phase <;> simp [phase]

theorem State.Sound.iff (s : State) : s.Sound ↔ s.HoldsServed ∧ s.RangeInv :=
  ⟨fun ⟨schedule, requests, timed, loop, spaced⟩ => ⟨⟨schedule, requests, timed⟩, loop, spaced⟩,
    fun ⟨⟨schedule, requests, timed⟩, loop, spaced⟩ => ⟨schedule, requests, timed, loop, spaced⟩⟩

/-- Settles O51: each effect keeps the loop; which command waits for a measurement rests on the account of the requests and
the holds' bounds. -/
theorem stepKeepsRangeLoop : Obligations.StepKeepsRangeLoop := fun s _ sound h =>
  (step_keeps (P := fun s => s.HoldsServed ∧ s.RangeInv) h ((State.Sound.iff s).1 sound) (fun _ kept => kept)
    (fun _ idle effect kept => ⟨effect.holdsServed idle kept.1, effect.rangeInv idle kept.2⟩)
    (fun _ effect kept => ⟨effect.holdsServed kept.1, effect.rangeInv kept.2⟩)
    (fun _ pending _ effect kept => ⟨effect.holdsServed kept.1, effect.rangeInv pending kept.1 kept.2⟩)
    (fun kept => kept)).2

/-! ### Every hold is served (R40, R623) -/

/-- A command that waits for a conversion has the poll of the one in flight: its own request is in flight or behind it. -/
theorem State.Sound.poll_of_awaits {s : State} (h : s.Sound) (waits : s.awaitsVoltage = true ∨ s.awaitsBar = true) :
    ∃ due, s.timers.adcPoll = some due ∧ s.now ≤ due := by
  obtain ⟨⟨noOverdue, -, adc, -⟩, requests, -⟩ := h
  have outstanding : s.adc.outstanding ≠ [] := by
    obtain ⟨host, press, -⟩ := requests
    intro none
    rw [none] at host press
    rcases waits with waits | waits
    · simp [waits] at host
    · simp [waits] at press
  unfold State.AdcSound at adc
  cases flight : s.adc.phase with
  | idle =>
    rw [flight] at adc
    simp [Adc.outstanding, flight, adc.2] at outstanding
  | converting ch req t0 =>
    rw [flight] at adc
    obtain ⟨due, poll, -⟩ := adc
    exact ⟨due, poll, noOverdue .adcPoll due poll⟩

/-- A command that waits for a measurement in POLL mode has the timed action of the measurement's phase. -/
theorem State.Sound.measurement_of_awaits {s : State} (h : s.Sound) (mode : s.cfg.rangeMode = .poll)
    (waits : s.awaitsRange = true) : ∃ a ∈ [Action.rangeHostTrig, .rangeTrigEnd, .rangeEchoTimeout],
      ∃ due, s.timers.get a = some due ∧ s.now ≤ due := by
  obtain ⟨⟨noOverdue, -⟩, -, -, loop, -⟩ := h
  obtain ⟨⟨trigEnd, echo⟩, -, poll⟩ := (rangeLoop_iff s).1 loop
  obtain ⟨-, -, -, served, -⟩ := poll mode
  have some {a : Action} (pending : (s.timers.get a).isSome) : ∃ due, s.timers.get a = some due ∧ s.now ≤ due := by
    obtain ⟨due, pending⟩ := Option.isSome_iff_exists.1 pending
    exact ⟨due, pending, noOverdue a due pending⟩
  rcases served.1 waits with pending | measuring
  · exact ⟨.rangeHostTrig, by simp, some pending⟩
  · cases phase : s.range.phase with
    | idle => exact absurd phase measuring
    | trig => exact ⟨.rangeTrigEnd, by simp, some (trigEnd.2 phase)⟩
    | waitRise => exact ⟨.rangeEchoTimeout, by simp, some (echo.2 (.inl phase))⟩
    | waitFall => exact ⟨.rangeEchoTimeout, by simp, some (echo.2 (.inr phase))⟩

/-- Settles O52: the deadline, the poll or the measurement's timed action is pending, by the clause of `State.Sound` for the
command that holds the port. -/
theorem heldPortHasPendingAction : Obligations.HeldPortHasPendingAction := by
  intro s hold sound held
  have ⟨⟨noOverdue, holdSound, _, _⟩, _, timed, _, _⟩ := sound
  obtain ⟨op, tAcc, tDl⟩ := hold
  obtain ⟨deadline, allowed⟩ : s.timers.hostDeadline = tDl ∧ (tDl.isSome → op.mayHaveDeadline) := by
    unfold State.HoldSound at holdSound
    rwa [held] at holdSound
  have noDeadline (never : op.mayHaveDeadline = false) : tDl = none := by
    cases tDl with
    | none => rfl
    | some dl => exact absurd (allowed rfl) (by simp [never])
  unfold State.HoldTimed at timed
  rw [held] at timed
  refine ⟨fun dl limit => ?_, ?_⟩
  · have pending : s.timers.hostDeadline = some dl := deadline.trans limit
    exact ⟨noOverdue .hostDeadline dl pending, pending⟩
  cases op with
  | pulse | waitEdge => exact timed
  | getVoltage => exact ⟨noDeadline rfl, sound.poll_of_awaits (.inl (by simp [State.awaitsVoltage, held]))⟩
  | getBar => exact ⟨noDeadline rfl, sound.poll_of_awaits (.inr (by simp [State.awaitsBar, held]))⟩
  | measure => exact ⟨noDeadline rfl, sound.measurement_of_awaits timed (by simp [State.awaitsRange, held])⟩
  | ready =>
    refine ⟨timed.2, fun poll => ⟨?_, sound.measurement_of_awaits poll (by simp [State.awaitsRange, held])⟩⟩
    cases tDl with
    | none => rfl
    | some dl => exact absurd (poll.symm.trans (timed.1 rfl)) (by decide)

end Sys2Proof.Machine

/-! SUPPORT. Exact values that are rationals: what the formulas of R13 answer on finite REALs, and the integrator's clamp
(R416). -/

namespace Sys2Proof.Machine

/-! ### Exact values of rationals -/

/-- `x` is the exact value `q`: that rational, or the negative zero. -/
def Num.IsRat (x : Num) (q : Rat) : Prop := x = .fin q ∨ (x = .negZero ∧ q = 0)

section
variable {x y : Num} {p q : Rat}

theorem realRat_negZero64 : realRat negZero64 = 0 := by decide +kernel

theorem isRat_realNum {x : Real64} (h : realFinite x = true) : (realNum x).IsRat (realRat x) := by
  unfold realNum Num.IsRat
  rw [realNaN_of_finite h, h]
  by_cases negZero : x = negZero64
  · simp [negZero, realRat_negZero64]
  · simp [negZero]

theorem Num.IsRat.fin (q : Rat) : (Num.fin q).IsRat q := .inl rfl

theorem Num.IsRat.ne_nan (h : x.IsRat q) : x ≠ .nan := by
  rcases h with rfl | ⟨rfl, -⟩ <;> exact nofun

theorem Num.IsRat.ne_inf (h : x.IsRat q) (neg : Bool) : x ≠ .inf neg := by
  rcases h with rfl | ⟨rfl, -⟩ <;> exact nofun

theorem Num.IsRat.rat_eq (h : x.IsRat q) : x.rat = q := by
  rcases h with rfl | ⟨rfl, rfl⟩ <;> rfl

theorem Num.IsRat.add (hx : x.IsRat p) (hy : y.IsRat q) : (x.add y).IsRat (p + q) := by
  rcases hx with rfl | ⟨rfl, rfl⟩ <;> rcases hy with rfl | ⟨rfl, rfl⟩ <;> simp [Num.add, Num.IsRat]

theorem Num.IsRat.negate (h : x.IsRat q) : x.negate.IsRat (-q) := by
  rcases h with rfl | ⟨rfl, rfl⟩
  · by_cases zero : q = 0 <;> simp [Num.negate, Num.IsRat, zero]
  · exact .inl (by simp [Num.negate])

theorem Num.IsRat.sub (hx : x.IsRat p) (hy : y.IsRat q) : (x.sub y).IsRat (p - q) :=
  sub_eq_add_neg p q ▸ hx.add hy.negate

/-- The exact product of rationals, its zero signed by the factors. -/
theorem Num.mul_of_isRat (hx : x.IsRat p) (hy : y.IsRat q) : x.mul y =
    if p * q = 0 then (if x.neg? != y.neg? then .negZero else .fin 0) else .fin (p * q) := by
  rcases hx with rfl | ⟨rfl, rfl⟩ <;> rcases hy with rfl | ⟨rfl, rfl⟩ <;> rfl

theorem Num.IsRat.mul (hx : x.IsRat p) (hy : y.IsRat q) : (x.mul y).IsRat (p * q) := by
  rw [Num.mul_of_isRat hx hy]
  split
  case isTrue zero =>
    rw [zero]
    split
    · exact .inr ⟨rfl, rfl⟩
    · exact .inl rfl
  case isFalse => exact .inl rfl

/-- A rational is rounded to the REAL nearest it, or is a zero. -/
theorem Num.IsRat.round_of_ne (h : x.IsRat q) (f : RealFmt) (nonzero : q ≠ 0) : x.round f = roundRat f q := by
  rcases h with rfl | ⟨-, zero⟩
  · rfl
  · exact absurd zero nonzero

theorem Num.IsRat.realZero_round (h : x.IsRat 0) (f : RealFmt) : realZero (x.round f) = true := by
  rcases h with rfl | ⟨rfl, -⟩
  · rw [Num.round, roundRat_zero]
    decide
  · exact (by decide : realZero negZero64 = true)

theorem Num.IsRat.lt (hx : x.IsRat p) (hy : y.IsRat q) : x.lt y = decide (p < q) := by
  rcases hx with rfl | ⟨rfl, rfl⟩ <;> rcases hy with rfl | ⟨rfl, rfl⟩ <;> rfl

theorem Num.IsRat.abs (h : x.IsRat q) : x.abs.IsRat |q| := by
  rcases h with rfl | ⟨rfl, rfl⟩
  · unfold Num.abs Num.neg?
    by_cases negative : q < 0
    · simpa [negative, abs_of_neg negative] using (Num.IsRat.fin q).negate
    · simpa [negative, abs_of_nonneg (not_lt.1 negative)] using Num.IsRat.fin q
  · exact .inl (by simp [Num.abs, Num.neg?, Num.negate])

/-- A sum with a rational is a NaN only for a NaN. -/
theorem Num.IsRat.add_ne_nan (hx : x.IsRat p) (hy : y ≠ .nan) : x.add y ≠ .nan := by
  rcases hx with rfl | ⟨rfl, -⟩ <;> cases y <;> simp_all [Num.add]

end

theorem realNum_ne_nan {x : Real64} (h : realNaN x = false) : realNum x ≠ .nan := by
  unfold realNum
  rw [h]
  simp only [Bool.false_eq_true, if_false]
  split
  · exact nofun
  · split <;> exact nofun

/-- Settles O60: each formula is exact on rationals, and one rounding follows. -/
theorem formulasAreExact : Obligations.FormulasAreExact := by
  intro f x y hx hy n q formula
  have exact : n.IsRat q := by
    rcases formula with ⟨rfl, rfl⟩ | ⟨rfl, rfl⟩ | ⟨rfl, rfl⟩
    · exact (isRat_realNum hx).add (isRat_realNum hy)
    · exact (isRat_realNum hx).sub (isRat_realNum hy)
    · exact (isRat_realNum hx).mul (isRat_realNum hy)
  refine ⟨exact.ne_nan, exact.ne_inf, exact.rat_eq, exact.round_of_ne f, ?_⟩
  rintro rfl
  exact exact.realZero_round f

/-! ### The integrator (R411, R416) -/

/-- Between inverted bounds `clamp` answers the upper one. -/
theorem clamp_of_inverted {x lo hi : Real64} (number : realNaN x = false) (hlo : realNaN lo = false)
    (hhi : realNaN hi = false) (inverted : realKey hi < realKey lo) : clamp x lo hi = hi := by
  have key := realKey_rmax number hlo
  have above : realKey hi < realKey (rmax x lo) := by omega
  have notBelow : realLt (rmax x lo) hi = false := by simp [realLt, hhi, above.le]
  have notZeros : (realZero (rmax x lo) && realZero hi) = false := by
    by_contra zeros
    obtain ⟨zero, zero'⟩ : realZero (rmax x lo) = true ∧ realZero hi = true := by simpa using zeros
    rw [realKey_of_zero zero, realKey_of_zero zero'] at above
    exact absurd above (lt_irrefl _)
  simp [clamp, rmin, notBelow, notZeros]

/-- Settles O43: the rounded sum is a number, and the clamp orders its key between those of the limits. -/
theorem integratorClamped : Obligations.IntegratorClamped := by
  intro f p error position hmin hmax hint number
  have sum : realNaN (((realNum p.integrator).add (realNum error)).round f) = false := by
    rw [realNaN_round]
    exact decide_eq_false ((isRat_realNum hint).add_ne_nan (realNum_ne_nan number))
  have nmin := realNaN_of_finite hmin
  have nmax := realNaN_of_finite hmax
  have key := realKey_clamp sum nmin nmax
  refine ⟨fun ordered => ?_, fun inverted => ?_, realFinite_clamp sum hmin hmax⟩
  · have ordered : realKey p.iMin ≤ realKey p.iMax := by
      have := (realLe_iff hmin hmax).2 ordered
      simpa [realLe, nmin, nmax] using this
    have number := realNaN_clamp sum nmin nmax
    simp only [Pid.after, Pid.integrate, realLe, number, nmin, nmax, key]
    simp [ordered]
  · have inverted : realKey p.iMax < realKey p.iMin := by
      have := (realLt_iff hmax hmin).2 inverted
      simpa [realLt, nmin, nmax] using this
    exact clamp_of_inverted sum nmin nmax inverted

end Sys2Proof.Machine

/-! SUPPORT. The REAL fields of each unit (R50): what every formula and every operand that a unit stores is, and the
statement that every step keeps them legal. -/

namespace Sys2Proof.Machine

/-! ### The REAL fields, unit by unit -/

/-- A finite value of the format, as every field for an operand, a sample or a drive holds one (R605). -/
def FiniteIn (f : RealFmt) (x : Real64) : Prop := realFinite x = true ∧ inFormat f x = true

/-- The PID's fields (R46). -/
structure Pid.Legal (f : RealFmt) (p : Pid) : Prop where
  pGain : FiniteIn f p.pGain
  iGain : FiniteIn f p.iGain
  dGain : FiniteIn f p.dGain
  iMin : FiniteIn f p.iMin
  iMax : FiniteIn f p.iMax
  integrator : FiniteIn f p.integrator
  lastPosition : FiniteIn f p.lastPosition

/-- The regulator's fields (R47). -/
structure Regulator.Legal (f : RealFmt) (r : Regulator) : Prop where
  target : FiniteIn f r.target
  timeStep : FiniteIn f r.timeStep
  latestTemp : FiniteIn f r.latestTemp
  latestDrive : FiniteIn f r.latestDrive
  period : legalPeriod r.periodUs = true

/-- The range finder's fields (R42, R350). -/
structure RangeFinder.Legal (f : RealFmt) (r : RangeFinder) : Prop where
  speed : FiniteIn f r.speed
  sign : realSign r.speed = false
  positive : f = .binary64 → realLt zero64 r.speed = true
  number : realNaN r.filtered = false
  filtered : inFormat f r.filtered = true

/-- Every unit's fields. -/
structure State.UnitReals (s : State) : Prop where
  pid : s.pid.Legal s.cfg.realFmt
  reg : s.reg.Legal s.cfg.realFmt
  range : s.range.Legal s.cfg.realFmt
  sample : FiniteIn s.cfg.realFmt s.temp.sample.value
  frac : FiniteIn s.cfg.realFmt s.pwm.frac

theorem realsLegal_iff (s : State) : s.RealsLegal ↔ s.UnitReals := by
  constructor
  · rintro ⟨pGain, iGain, dGain, iMin, iMax, integrator, lastPosition, target, timeStep, latestTemp, latestDrive, sample,
      frac, speed, sign, positive, number, period, formats⟩
    simp only [State.reals, List.all_cons, List.all_nil, Bool.and_true, Bool.and_eq_true] at formats
    obtain ⟨pGain', iGain', dGain', iMin', iMax', integrator', lastPosition', target', timeStep', latestTemp', latestDrive',
      sample', speed', filtered', frac'⟩ := formats
    exact ⟨⟨⟨pGain, pGain'⟩, ⟨iGain, iGain'⟩, ⟨dGain, dGain'⟩, ⟨iMin, iMin'⟩, ⟨iMax, iMax'⟩, ⟨integrator, integrator'⟩,
      ⟨lastPosition, lastPosition'⟩⟩, ⟨⟨target, target'⟩, ⟨timeStep, timeStep'⟩, ⟨latestTemp, latestTemp'⟩,
      ⟨latestDrive, latestDrive'⟩, period⟩, ⟨⟨speed, speed'⟩, sign, positive, number, filtered'⟩, ⟨sample, sample'⟩,
      ⟨frac, frac'⟩⟩
  · rintro ⟨⟨pGain, iGain, dGain, iMin, iMax, integrator, lastPosition⟩, ⟨target, timeStep, latestTemp, latestDrive, period⟩,
      ⟨speed, sign, positive, number, filtered⟩, sample, frac⟩
    refine ⟨pGain.1, iGain.1, dGain.1, iMin.1, iMax.1, integrator.1, lastPosition.1, target.1, timeStep.1, latestTemp.1,
      latestDrive.1, sample.1, frac.1, speed.1, sign, positive, number, period, ?_⟩
    simp [State.reals, pGain.2, iGain.2, dGain.2, iMin.2, iMax.2, integrator.2, lastPosition.2, target.2, timeStep.2,
      latestTemp.2, latestDrive.2, sample.2, speed.2, filtered, frac.2]

theorem State.UnitReals.of_same {s t : State} (h : s.UnitReals) (cfg : t.cfg = s.cfg) (pid : t.pid = s.pid)
    (reg : t.reg = s.reg) (range : t.range = s.range) (temp : t.temp = s.temp)
    (frac : t.pwm.frac = s.pwm.frac) : t.UnitReals := by
  obtain ⟨hpid, hreg, hrange, hsample, hfrac⟩ := h
  constructor
  · rwa [cfg, pid]
  · rwa [cfg, reg]
  · rwa [cfg, range]
  · rwa [cfg, temp]
  · rwa [cfg, frac]

/-! ### What the units store -/

theorem finiteIn_zero64 (f : RealFmt) : FiniteIn f zero64 := ⟨by decide, inFormat_zero64 f⟩

/-- An operand as a REAL field stores it (R13, R605). -/
theorem State.finiteIn_toReal {s : State} (format : s.cfg.realFmt.legal = true) (x : Real64) :
    FiniteIn s.cfg.realFmt (s.toReal x) := by
  obtain ⟨finite, -, -, inFormat⟩ := s.stores_toReal x
  exact ⟨finite, inFormat format⟩

/-- A duty fraction (R281). -/
theorem finiteIn_duty {f : RealFmt} (format : f.legal = true) {x : Real64} (number : realNaN x = false) :
    FiniteIn f (toFormat f (clamp x zero64 one64)) := by
  obtain ⟨low, high⟩ := pwmFrac_spec format number
  exact ⟨realFinite_of_between (by decide) (by decide) low high, inFormat_toFormat format _⟩

/-- An update of the PID by an error that is a number (R411). -/
theorem Pid.Legal.after {f : RealFmt} (format : f.legal = true) {p : Pid} (h : p.Legal f) {error position : Real64}
    (number : realNaN error = false) (stored : FiniteIn f position) : (p.after f error position).Legal f := by
  obtain ⟨pGain, iGain, dGain, iMin, iMax, integrator, -⟩ := h
  refine ⟨pGain, iGain, dGain, iMin, iMax, ⟨?_, ?_⟩, stored⟩
  · refine realFinite_clamp ?_ iMin.1 iMax.1
    rw [realNaN_round]
    exact decide_eq_false ((isRat_realNum integrator.1).add_ne_nan (realNum_ne_nan number))
  · exact inFormat_clamp (inFormat_round format _) iMin.2 iMax.2

/-- The gated drive (R431). -/
theorem State.finiteIn_gated {s : State} {drive : Real64} (format : s.cfg.realFmt.legal = true)
    (number : realNaN drive = false) (stored : inFormat s.cfg.realFmt drive = true) :
    FiniteIn s.cfg.realFmt (s.gated drive) := by
  refine ⟨realFinite_clamp ?_ (by decide) (by decide), State.inFormat_gated format stored⟩
  split
  · exact number
  · decide

/-- The difference of a tick is a number (R431). -/
theorem State.realNaN_tickError {s : State} (target : realFinite s.reg.target = true)
    (sample : realFinite s.temp.sample.value = true) : realNaN s.tickError = false := by
  unfold State.tickError
  rw [realNaN_round]
  exact decide_eq_false ((isRat_realNum target).sub (isRat_realNum sample)).ne_nan

/-- A frame's value, where it is accepted, lies between the finite bounds (R317, R318). -/
theorem Temp.finiteIn_decodeFrame {c : Config} (legal : c.wellFormed = true) {t : Temp} (w ts : U32)
    (h : FiniteIn c.realFmt t.sample.value) : FiniteIn c.realFmt (t.decodeFrame c w ts).sample.value := by
  have finite : c.reals.all realFinite = true := by
    obtain ⟨-, -, -, -, -, -, finite, -⟩ := (wellFormed_iff c).1 legal
    exact finite
  rw [List.all_eq_true] at finite
  have minTemp := finite c.minTemp (by simp [Config.reals])
  have maxTemp := finite c.maxTemp (by simp [Config.reals])
  unfold Temp.decodeFrame
  simp only
  split
  · exact h
  · split
    · exact h
    · split
      · exact h
      case isFalse inRange =>
        obtain ⟨low, high⟩ : realLe c.minTemp (scaleTemp c (rawTemp (packets c w))) = true ∧
            realLe (scaleTemp c (rawTemp (packets c w))) c.maxTemp = true := by simpa using inRange
        exact ⟨realFinite_of_between minTemp maxTemp low high, inFormat_roundRat (legal_of_wellFormed legal) _⟩

theorem Temp.finiteIn_shiftIn {c : Config} (legal : c.wellFormed = true) {t : Temp} (bit : Bool) (ts : U32)
    (h : FiniteIn c.realFmt t.sample.value) : FiniteIn c.realFmt (t.shiftIn c bit ts).sample.value := by
  unfold Temp.shiftIn
  simp only
  split
  · exact Temp.finiteIn_decodeFrame legal _ _ (by exact h)
  · exact h

theorem Temp.finiteIn_fall {c : Config} (legal : c.wellFormed = true) {t : Temp} (ts : U32)
    (h : FiniteIn c.realFmt t.sample.value) : FiniteIn c.realFmt (t.fall c ts).sample.value := by
  unfold Temp.fall
  simp only
  split
  · exact h
  · exact Temp.finiteIn_shiftIn legal true ts (by exact h)
  · exact Temp.finiteIn_shiftIn legal false ts (by exact h)

/-- A positive speed is stored as one in the default format, and with its sign in every one (R350). -/
theorem State.legal_setSpeed {s : State} (format : s.cfg.realFmt.legal = true) (h : s.range.Legal s.cfg.realFmt)
    {c : Real64} (finite : realFinite c = true) (positive : realLe c zero64 = false) :
    RangeFinder.Legal s.cfg.realFmt { s.range with speed := s.toReal c } := by
  have key : 0 < realKey c := by
    simpa [realLe, realNaN_of_finite finite, (by decide : realNaN zero64 = false), (by decide : realKey zero64 = 0)]
      using positive
  have sign : realSign c = false := by
    unfold realKey at key
    cases e : realSign c with
    | false => rfl
    | true => simp [e] at key; omega
  obtain ⟨-, sameSign, -, -⟩ := s.stores_toReal c
  refine ⟨State.finiteIn_toReal format c, sameSign.trans sign, fun binary64 => ?_, h.number, h.filtered⟩
  rw [State.toReal_binary64 binary64 finite]
  simpa [realLt, realNaN_of_finite finite, (by decide : realNaN zero64 = false), (by decide : realKey zero64 = 0)]

/-- The end of a measurement with a number of the format publishes one (R345, R347). -/
theorem State.legal_measureDone {s : State} (format : s.cfg.realFmt.legal = true) (h : s.range.Legal s.cfg.realFmt)
    {r : Real64} (number : realNaN r = false) (stored : inFormat s.cfg.realFmt r = true) (timedOut : Bool) :
    (s.measureDone r timedOut).range.Legal s.cfg.realFmt := by
  obtain ⟨speed, sign, positive, number', filtered⟩ := h
  have kept {u : RangeFinder} (speed' : u.speed = s.range.speed) (filtered' : u.filtered = s.range.filtered) :
      u.Legal s.cfg.realFmt := by
    constructor <;> simp only [speed', filtered'] <;> assumption
  have published {u : RangeFinder} (speed' : u.speed = s.range.speed) (filtered' : u.filtered = r) :
      u.Legal s.cfg.realFmt := by
    constructor <;> simp only [speed', filtered'] <;> assumption
  unfold State.measureDone
  simp only
  split
  · unfold State.hostResult
    split
    · split
      · exact kept rfl rfl
      · exact published rfl rfl
    · split
      · exact published rfl rfl
      · split <;> exact kept rfl rfl
    · exact kept rfl rfl
  · unfold State.samplerResult
    split
    · exact published (by simp [State.publish]) (by simp [State.publish])
    · split
      · exact kept rfl rfl
      · exact ⟨by simpa using speed, by simpa using sign, fun binary64 => by simpa using positive binary64,
          State.realNaN_storedReal _ _,
          State.inFormat_storedReal (s := { s with range := { s.range with phase := .idle } }) format _⟩

theorem State.legal_echoEdge {s : State} (format : s.cfg.realFmt.legal = true) (h : s.range.Legal s.cfg.realFmt)
    (level : Bool) (ts : U32) : (s.echoEdge level ts).range.Legal s.cfg.realFmt := by
  unfold State.echoEdge
  split
  · obtain ⟨speed, sign, positive, number, filtered⟩ := h
    exact ⟨speed, sign, positive, number, filtered⟩
  · split
    · exact State.legal_measureDone (s := s.cancel .rangeEchoTimeout) format h (realNaN_distance _ h.speed.1 _)
        (inFormat_round format _) false
    · exact h

/-! ### The effects -/

/-- The stop procedure leaves a zero drive and a zero duty (R436). -/
theorem State.UnitReals.stopProcedure {s : State} (h : s.UnitReals) :
    s.stopProcedure.UnitReals := by
  obtain ⟨pid, reg, range, sample, -⟩ := h
  rw [State.stopProcedure_eq]
  exact ⟨pid, ⟨reg.target, reg.timeStep, reg.latestTemp, finiteIn_zero64 _, reg.period⟩, range, sample, finiteIn_zero64 _⟩

theorem HostEffect.unitReals {s t : State} (format : s.cfg.realFmt.legal = true) (effect : HostEffect s t)
    (h : s.UnitReals) : t.UnitReals := by
  have ⟨pid, reg, range, sample, frac⟩ := h
  have operand := State.finiteIn_toReal format
  cases effect with
  | asksVoltage | asksBar => exact h.of_same (by simp) (by simp) (by simp) (by simp) (by simp) (by simp)
  | setsDuty finite => exact ⟨pid, reg, range, sample, finiteIn_duty format (realNaN_of_finite finite)⟩
  | setsSpeed finite positive => exact ⟨pid, reg, State.legal_setSpeed format range finite positive, sample, frac⟩
  | setsGains =>
    exact ⟨⟨operand _, operand _, operand _, pid.iMin, pid.iMax, pid.integrator, pid.lastPosition⟩, reg, range, sample,
      frac⟩
  | setsLimits =>
    exact ⟨⟨pid.pGain, pid.iGain, pid.dGain, operand _, operand _, pid.integrator, pid.lastPosition⟩, reg, range, sample,
      frac⟩
  | updatesPid o v fe fp => exact ⟨pid.after format (realNaN_of_finite fe) (operand _), reg, range, sample, frac⟩
  | startsReg =>
    exact ⟨pid, ⟨reg.target, reg.timeStep, reg.latestTemp, reg.latestDrive, reg.period⟩, range, sample, frac⟩
  | restartsReg =>
    obtain ⟨pid, reg, range, sample, frac⟩ := h.stopProcedure
    exact ⟨pid, ⟨reg.target, reg.timeStep, reg.latestTemp, reg.latestDrive, reg.period⟩, range, sample, frac⟩
  | stopsReg => exact (h.stopProcedure).of_same rfl rfl rfl rfl rfl rfl
  | setsTarget =>
    exact ⟨pid, ⟨operand _, reg.timeStep, reg.latestTemp, reg.latestDrive, reg.period⟩, range, sample, frac⟩
  | @setsTimeStep sec finite legal =>
    refine ⟨pid, ⟨reg.target, operand _, reg.latestTemp, reg.latestDrive, ?_⟩, range, sample, frac⟩
    have positive : 1 ≤ periodOf sec := by
      simp only [legalPeriod, Bool.and_eq_true, decide_eq_true_eq] at legal
      exact legal.1
    exact (congrArg legalPeriod (Int.toNat_of_nonneg (by omega))).trans legal
  | setsPower =>
    exact ⟨pid, ⟨reg.target, reg.timeStep, reg.latestTemp, reg.latestDrive, reg.period⟩, range, sample, frac⟩
  | _ => exact h.of_same rfl rfl rfl rfl rfl rfl

theorem State.UnitReals.dispatch {s : State} (legal : s.cfg.wellFormed = true) (h : s.UnitReals) (ev : EdgeEvent) :
    (s.dispatch ev).UnitReals := by
  have owner : (s.ownerHandler ev).UnitReals := by
    have ⟨pid, reg, range, sample, frac⟩ := h
    unfold State.ownerHandler
    split
    · refine ⟨pid, reg, range, ?_, frac⟩
      unfold State.tempEdge
      cases ev.level with
      | true => exact sample
      | false => exact Temp.finiteIn_fall legal ev.ts sample
    · rw [State.echoEdge_frame]
      exact ⟨pid, reg, State.legal_echoEdge (legal_of_wellFormed legal) range ev.level ev.ts, sample, frac⟩
    · exact h.of_same (by rw [State.flowEdge_frame]) (by rw [State.flowEdge_frame]) (by rw [State.flowEdge_frame])
        (by rw [State.flowEdge_frame]) (by rw [State.flowEdge_frame]) (by rw [State.flowEdge_frame])
    all_goals exact h
  exact owner.of_same (by simp [State.dispatch]) (by simp [State.dispatch]) (by simp [State.dispatch])
    (by simp [State.dispatch]) (by simp [State.dispatch]) (by simp [State.dispatch])

theorem EnvEffect.unitReals {s t : State} (legal : s.cfg.wellFormed = true) (effect : EnvEffect s t) (h : s.UnitReals) :
    t.UnitReals := by
  cases effect with
  | dispatches p l ev =>
    exact State.UnitReals.dispatch (s := s.setPin p { s.pin p with inLevel := l }) legal
      (h.of_same rfl rfl rfl rfl rfl rfl) ev
  | _ => exact h.of_same rfl rfl rfl rfl rfl rfl

/-- Steps 3 to 6 of a tick store the reading and the gated drive (R431). -/
theorem State.UnitReals.tickWrite {s : State} (format : s.cfg.realFmt.legal = true) (h : s.UnitReals) {drive : Real64}
    (number : realNaN drive = false) (stored : inFormat s.cfg.realFmt drive = true) :
    (s.tickWrite s.temp.sample.value drive).UnitReals := by
  obtain ⟨pid, reg, range, sample, -⟩ := h
  exact ⟨pid, ⟨reg.target, reg.timeStep, sample, State.finiteIn_gated format number stored, reg.period⟩, range, sample,
    finiteIn_duty format (realNaN_gated s number)⟩

theorem State.UnitReals.regTick {s : State} (format : s.cfg.realFmt.legal = true) (h : s.UnitReals) :
    s.regTick.UnitReals := by
  have ⟨pid, reg, range, sample, frac⟩ := h
  unfold State.regTick
  simp only
  split
  · exact h.tickWrite format (by decide) (inFormat_zero64 _)
  · generalize updated : ({ s with pid := s.pid.after s.cfg.realFmt s.tickError s.temp.sample.value } : State) = u
    have legal : u.UnitReals := updated ▸
      ⟨pid.after format (State.realNaN_tickError reg.target.1 sample.1) sample, reg, range, sample, frac⟩
    have temp : u.temp = s.temp := updated ▸ rfl
    have cfg : u.cfg = s.cfg := updated ▸ rfl
    rw [← temp]
    rw [← cfg] at format ⊢
    split
    · obtain ⟨pid, reg, range, sample, frac⟩ := legal.stopProcedure
      exact ⟨pid, ⟨reg.target, reg.timeStep, sample, reg.latestDrive, reg.period⟩, range, sample, frac⟩
    case isFalse number =>
      exact legal.tickWrite format ((realNaN_round _ _).trans (decide_eq_false number)) (inFormat_round format _)

theorem FireEffect.unitReals {s t : State} {a : Action} (format : s.cfg.realFmt.legal = true) (effect : FireEffect s a t)
    (h : s.UnitReals) : t.UnitReals := by
  have ⟨pid, reg, range, sample, frac⟩ := h
  have measured {u : RangeFinder} (speed : u.speed = s.range.speed) (filtered : u.filtered = s.range.filtered) :
      u.Legal s.cfg.realFmt := by
    obtain ⟨speed', sign, positive, number, filtered'⟩ := range
    constructor <;> simp only [speed, filtered] <;> assumption
  cases effect with
  | samples | retries | measures | trigEnds => exact ⟨pid, reg, measured rfl rfl, sample, frac⟩
  | noEcho =>
    unfold State.echoTimeout
    rw [State.measureDone_frame]
    exact ⟨pid, reg, State.legal_measureDone format range (by decide) (inFormat_zero64 _) true, sample, frac⟩
  | pollsButtons | pollsAdc => exact h.of_same (by simp) (by simp) (by simp) (by simp) (by simp) (by simp)
  | ticks => exact h.regTick format
  | _ => exact h.of_same rfl rfl rfl rfl rfl rfl

/-- Settles O55: each unit's fields are kept by every effect. -/
theorem stepKeepsRealsLegal : Obligations.StepKeepsRealsLegal := by
  intro s t init h
  rw [realsLegal_iff] at *
  exact step_keeps (P := State.UnitReals) h init (fun _ kept => kept.of_same rfl rfl rfl rfl rfl rfl)
    (fun legal _ effect kept => effect.unitReals (legal_of_wellFormed legal) kept)
    (fun legal effect kept => effect.unitReals legal kept)
    (fun {s _ a _} legal _ _ effect kept => FireEffect.unitReals (s := s.cancel a) (legal_of_wellFormed legal) effect
      (kept.of_same rfl rfl rfl rfl rfl rfl))
    (fun kept => kept.of_same rfl rfl rfl rfl rfl rfl)

end Sys2Proof.Machine

/-! SUPPORT. Commands that are turned away (R147, R602, R605): an operand outside its legal set, and the responses that
follow a command which runs. -/

namespace Sys2Proof.Machine

/-! ### Ill-formed operands (R147, R605) -/

/-- The command answers BADARG with zero results, and nothing else changes. -/
def Refuses (i : Instr) (s : State) : Prop := ∃ zeros, (∀ v ∈ zeros, v = Val.u8 0 ∨ v = .u32 0 ∨ v = .real 0) ∧
  exec i s = .next { s with responses := s.responses ++ [{ status := .badarg, results := zeros }] }

theorem Refuses.bare {i : Instr} {s : State} (h : exec i s = .next (s.reply .badarg [])) : Refuses i s :=
  ⟨[], by simp, h⟩

theorem Refuses.real {i : Instr} {s : State} (h : exec i s = .next (s.reply .badarg [.real 0])) : Refuses i s :=
  ⟨[.real 0], by simp, h⟩

theorem notBit_of_illegal {b : Byte} (h : legalBit b = false) : notBit b = true := by
  simpa [legalBit, notBit] using h

theorem realLe_of_not_realLt {x y : Real64} (hx : realNaN x = false) (hy : realNaN y = false) (h : realLt x y = false) :
    realLe y x = true := by
  simpa [realLt, realLe, hx, hy] using h

theorem realLt_of_not_realLe {x y : Real64} (hx : realNaN x = false) (hy : realNaN y = false) (h : realLe x y = false) :
    realLt y x = true := by
  simpa [realLt, realLe, hx, hy] using h

/-- An operand outside its static legal set is refused before anything else is looked at. -/
theorem refuses_of_illFormed {i : Instr} (illFormed : i.wellFormed = false) (host : i.port = .host) (s : State) :
    Refuses i s := by
  have number0 : realNaN zero64 = false := by decide
  cases i with
  | gpioSetdir pin dir => exact .bare (congrArg _ (if_pos (notBit_of_illegal illFormed)))
  | gpioWrite pin level => exact .bare (congrArg _ (if_pos (notBit_of_illegal illFormed)))
  | gpioPulse pin level width =>
    refine .bare (congrArg _ (if_pos ?_))
    rcases (by simpa [Instr.wellFormed] using illFormed : legalBit level = true → width = 0) with width
    cases bit : legalBit level with
    | true => simp [width bit]
    | false => simp [notBit_of_illegal bit]
  | gpioSetedge pin mode => exact .bare (congrArg _ (if_pos (by simpa [Instr.wellFormed, legalMode] using illFormed)))
  | regSetpower on => exact .bare (congrArg _ (if_pos (notBit_of_illegal illFormed)))
  | adcGetvoltage ch => exact .real (congrArg _ (if_pos (by simpa [Instr.wellFormed, legalChannel] using illFormed)))
  | ntfEnable mask => exact .bare (congrArg _ (if_pos (by simpa [Instr.wellFormed, legalMask] using illFormed)))
  | pwmSetvalue x => exact .bare (congrArg _ (if_pos (by simpa [Instr.wellFormed] using illFormed)))
  | regSettarget x => exact .bare (congrArg _ (if_pos (by simpa [Instr.wellFormed] using illFormed)))
  | pwmSetrange r => exact .bare (congrArg _ (if_pos (by simpa [Instr.wellFormed] using illFormed)))
  | pwmSetdivisor d =>
    have zero : d = 0 := by simpa [Instr.wellFormed] using illFormed
    exact .bare (congrArg _ (if_pos (by simp [zero])))
  | pidSetgains p i d => exact .bare (congrArg _ (if_pos (congrArg (!·) illFormed)))
  | pidSetlimits lo hi => exact .bare (congrArg _ (if_pos (congrArg (!·) illFormed)))
  | pidUpdate error position => exact .real (congrArg _ (if_pos (congrArg (!·) illFormed)))
  | rangeSetspeed c =>
    refine .bare (congrArg _ (if_pos ?_))
    cases finite : realFinite c with
    | false => rfl
    | true =>
      have notPositive : realLt zero64 c = false := by simpa [Instr.wellFormed, finite] using illFormed
      exact realLe_of_not_realLt number0 (realNaN_of_finite finite) notPositive
  | flowNotifyafter litres =>
    refine .bare (congrArg _ (if_pos ?_))
    cases finite : realFinite litres with
    | false => rfl
    | true =>
      have negative : realLe zero64 litres = false := by simpa [Instr.wellFormed, finite] using illFormed
      exact realLt_of_not_realLe number0 (realNaN_of_finite finite) negative
  | regSettimestep sec =>
    refine .bare (congrArg Host.Outcome.next ?_)
    cases finite : realFinite sec with
    | false => exact if_pos rfl
    | true =>
      have illegal : legalPeriod (periodOf sec) = false := by simpa [Instr.wellFormed, finite] using illFormed
      exact (if_neg (by simp)).trans (if_pos (by simp [illegal]))
  | envPin | envTime => cases host
  | _ => cases illFormed

/-- Settles O8: every refusal is the first check of its command. -/
theorem illFormedOperands : Obligations.IllFormedOperands := by
  intro i s illFormed
  refine ⟨fun host => refuses_of_illFormed illFormed host s, fun env => ?_⟩
  cases i with
  | envPin pin level =>
    have level : notBit level = true := notBit_of_illegal illFormed
    exact congrArg _ (if_pos (by simp [level]))
  | envTime => cases illFormed
  | _ => cases env

/-! ### The responses of a command that runs (R602) -/

/-- `t` has the responses of `s`, and after them none that turns a command away. -/
def Serves (s t : State) : Prop := ∃ l, t.responses = s.responses ++ l ∧
  ∀ r ∈ l, r.status ∉ [Status.illegal, .badarg, .busy, .empty]

section
variable {s t u : State}

theorem Serves.of_same (h : t.responses = s.responses) : Serves s t := ⟨[], by simp [h], by simp⟩

theorem Serves.trans (h : Serves s t) (h' : Serves t u) : Serves s u := by
  obtain ⟨l, responses, served⟩ := h
  obtain ⟨l', responses', served'⟩ := h'
  refine ⟨l ++ l', by rw [responses', responses, List.append_assoc], fun r added => ?_⟩
  rcases List.mem_append.1 added with added | added
  · exact served r added
  · exact served' r added

theorem Serves.of_response {st : Status} {rs : List Val} (served : st ∉ [Status.illegal, .badarg, .busy, .empty])
    (h : t.responses = s.responses ++ [{ status := st, results := rs }]) : Serves s t :=
  ⟨_, h, by simpa using served⟩

/-- A step that serves its commands adds no single response that turns one away. -/
theorem Serves.not_refused {r : Response} (h : Serves s t) (added : t.responses = s.responses ++ [r]) :
    r.status ∉ [Status.illegal, .badarg, .busy, .empty] := by
  obtain ⟨l, responses, served⟩ := h
  obtain rfl : l = [r] := List.append_cancel_left (responses.symm.trans added)
  exact served r (by simp)

end

theorem State.deliver_serves (s : State) (req : AdcReq) {st : Status} (v : Real64)
    (served : st ∉ [Status.illegal, .badarg, .busy, .empty]) : Serves s (s.deliver req st v) := by
  cases req with
  | host | press => exact .of_response served rfl
  | btn => exact .of_same (by simp [State.deliver])

theorem State.startNext_serves (l : List (BitVec 2 × AdcReq)) (s : State) : Serves s (s.startNext l) := by
  induction l generalizing s with
  | nil => exact .of_same rfl
  | cons r l ih =>
    rw [State.startNext_cons]
    split
    · exact .of_same rfl
    · refine Serves.trans ?_ (ih _)
      refine Serves.trans ?_ (State.deliver_serves (st := .ioerr) _ r.2 zero64 (by decide))
      exact .of_same rfl

theorem State.request_serves (s : State) (ch : BitVec 2) (req : AdcReq) : Serves s (s.request ch req) := by
  unfold State.request
  split
  · exact State.startNext_serves _ s
  · exact .of_same rfl

theorem HostEffect.serves {s t : State} (effect : HostEffect s t) :
    (∃ st rs, t = s.reply st rs) ∨ Serves s t := by
  cases effect with
  | answers st rs => exact .inl ⟨st, rs, rfl⟩
  | asksVoltage ch => exact .inr (Serves.trans (.of_same rfl) (State.request_serves (s.hold (.getVoltage ch)) _ _))
  | asksBar => exact .inr (Serves.trans (.of_same rfl) (State.request_serves (s.hold .getBar) _ _))
  | pulses | awaitsEdge | awaitsSample | measures | awaitsMeasurement => exact .inr (.of_same rfl)
  | probes presence o b status => exact .inr (.of_response (by rcases status with rfl | rfl <;> decide) rfl)
  | _ => exact .inr (.of_response (st := .ok) (by decide) rfl)

theorem State.completeReady_serves (s : State) : Serves s s.completeReady := by
  unfold State.completeReady
  split
  · exact .of_response (st := .ok) (by decide) rfl
  · exact .of_same rfl

theorem State.measureDone_serves (s : State) (r : Real64) (timedOut : Bool) : Serves s (s.measureDone r timedOut) := by
  unfold State.measureDone
  simp only
  split
  · unfold State.hostResult
    split
    · split
      · exact .of_response (st := .timeout) (by decide) rfl
      · exact .of_response (st := .ok) (by decide) rfl
    · split
      · exact .of_response (st := .ok) (by decide) rfl
      · split
        · exact .of_response (st := .timeout) (by decide) rfl
        · exact .of_same rfl
    · exact .of_same rfl
  · unfold State.samplerResult
    split
    · exact Serves.trans (.of_same rfl) (State.completeReady_serves _)
    · split
      · exact .of_same rfl
      · exact .of_same (by simp)

theorem State.dispatch_serves (s : State) (ev : EdgeEvent) : Serves s (s.dispatch ev) := by
  have owner : Serves s (s.ownerHandler ev) := by
    unfold State.ownerHandler
    split
    case h_2 =>
      unfold State.echoEdge
      split
      · exact .of_same rfl
      · split
        · exact Serves.trans (.of_same rfl) (State.measureDone_serves _ _ false)
        · exact .of_same rfl
    case h_3 => exact .of_same (by rw [State.flowEdge_frame])
    all_goals exact .of_same rfl
  have waited : Serves (s.ownerHandler ev) ((s.ownerHandler ev).waitEdgeDone ev) := by
    unfold State.waitEdgeDone
    split
    · split
      · exact .of_response (st := .ok) (by decide) rfl
      · exact .of_same rfl
    · exact .of_same rfl
  exact (owner.trans waited).trans (.of_same (by simp [State.dispatch]))

theorem EnvEffect.serves {s t : State} (effect : EnvEffect s t) : Serves s t := by
  cases effect with
  | dispatches p l ev => exact Serves.trans (.of_same rfl) (State.dispatch_serves _ ev)
  | _ => exact .of_same rfl

/-- Settles O9: a command either only answers, or adds no response that turns one away. -/
theorem raiseChangesNothing : Obligations.RaiseChangesNothing := by
  intro i s t r h added refused
  cases port : i.port with
  | environment => exact absurd refused ((EnvEffect.of_exec port h).serves.not_refused added)
  | host =>
    rcases (HostEffect.of_exec port h).serves with ⟨st, rs, rfl⟩ | serves
    · obtain rfl : _ = r := List.singleton_inj.1 (List.append_cancel_left added)
      rfl
    · exact absurd refused (serves.not_refused added)

end Sys2Proof.Machine

/-! SUPPORT. The GPIO commands, the edge detector and the time base as equations (R201, R210 to R232, R470). -/

namespace Sys2Proof.Machine

/-! ### The write-class commands (R220, R221, R224) -/

/-- The write-class check of R201 as its two tests. -/
theorem State.pinCheck_eq (s : State) (pin : Byte) : s.pinCheck pin =
    if s.cfg.npins ≤ pin.toNat then some .badarg else if (s.pin pin.toNat).owner ≠ .host then some .busy else none := by
  simp only [State.pinCheck, State.noSuchPin, decide_eq_true_eq]

/-- A write-class command is refused for its operand, then for its pin, or runs. -/
theorem exec_checked {s t : State} {pin : Byte} {i : Instr} (illegal : Prop) [Decidable illegal]
    (illFormed : illegal → exec i s = .next (s.reply .badarg []))
    (refused : ¬illegal → ∀ st, s.pinCheck pin = some st → exec i s = .next (s.reply st []))
    (runs : ¬illegal → s.pinCheck pin = none → exec i s = .next t) :
    exec i s = .next (
      if illegal then s.reply .badarg []
      else if s.cfg.npins ≤ pin.toNat then s.reply .badarg []
      else if (s.pin pin.toNat).owner ≠ .host then s.reply .busy []
      else t) := by
  have check := s.pinCheck_eq pin
  by_cases bad : illegal
  · rw [if_pos bad]
    exact illFormed bad
  · rw [if_neg bad]
    split_ifs at check ⊢
    · exact refused bad _ check
    · exact refused bad _ check
    · exact runs bad check

section
variable {s : State} {pin b : Byte}

theorem notBit_iff : notBit b = true ↔ 1 < b.toNat := decide_eq_true_iff

theorem exec_gpioSetdir : exec (.gpioSetdir pin b) s = .next (
    if 1 < b.toNat then s.reply .badarg []
    else if s.cfg.npins ≤ pin.toNat then s.reply .badarg []
    else if (s.pin pin.toNat).owner ≠ .host then s.reply .busy []
    else if b = 1 then (s.setPin pin.toNat { s.pin pin.toNat with dir := .output }).reply .ok []
    else (s.drawLevel.2.setPin pin.toNat
      { s.drawLevel.2.pin pin.toNat with dir := .input, inLevel := s.drawLevel.1 }).reply .ok []) := by
  refine exec_checked _ (fun bad => ?_) (fun legal st check => ?_) fun legal check => ?_
  · simp only [exec, execGpioSetdir, notBit_iff.2 bad, if_true, State.raise]
  · simp only [exec, execGpioSetdir, notBit_iff, if_neg legal, check, State.raise]
  · simp only [exec, execGpioSetdir, notBit_iff, if_neg legal, check, bitOf, decide_eq_true_eq]

theorem exec_gpioWrite : exec (.gpioWrite pin b) s = .next (
    if 1 < b.toNat then s.reply .badarg []
    else if s.cfg.npins ≤ pin.toNat then s.reply .badarg []
    else if (s.pin pin.toNat).owner ≠ .host then s.reply .busy []
    else (s.pinOut pin.toNat (bitOf b)).reply .ok []) := by
  refine exec_checked _ (fun bad => ?_) (fun legal st check => ?_) fun legal check => ?_
  · simp only [exec, execGpioWrite, notBit_iff.2 bad, if_true, State.raise]
  · simp only [exec, execGpioWrite, notBit_iff, if_neg legal, check, State.raise]
  · simp only [exec, execGpioWrite, notBit_iff, if_neg legal, check]

theorem exec_gpioSetedge : exec (.gpioSetedge pin b) s = .next (
    if 3 < b.toNat then s.reply .badarg []
    else if s.cfg.npins ≤ pin.toNat then s.reply .badarg []
    else if (s.pin pin.toNat).owner ≠ .host then s.reply .busy []
    else (s.setPin pin.toNat { s.pin pin.toNat with edgeMode := edgeModeOf b }).reply .ok []) := by
  refine exec_checked _ (fun bad => ?_) (fun legal st check => ?_) fun legal check => ?_
  · simp only [exec, execGpioSetedge, if_pos bad, State.raise]
  · simp only [exec, execGpioSetedge, if_neg legal, check, State.raise]
  · simp only [exec, execGpioSetedge, if_neg legal, check]

theorem State.noSuchPin_iff : s.noSuchPin pin = true ↔ s.cfg.npins ≤ pin.toNat := decide_eq_true_iff

/-- An observing command runs on every pin that exists. -/
theorem exec_subscriptions :
    exec (.gpioSubscribe pin) s = .next (
      if s.cfg.npins ≤ pin.toNat then s.reply .badarg []
      else (s.setPin pin.toNat { s.pin pin.toNat with hostSub := true }).reply .ok []) ∧
    exec (.gpioUnsubscribe pin) s = .next (
      if s.cfg.npins ≤ pin.toNat then s.reply .badarg []
      else (s.setPin pin.toNat { s.pin pin.toNat with hostSub := false }).reply .ok []) := by
  simp only [exec, execGpioSubscribe, execGpioUnsubscribe, State.noSuchPin_iff, State.raise, and_self]

theorem State.drawLevel_scripted {l : Bool} {rest : List Bool} (h : s.outside.levels = l :: rest) :
    s.drawLevel = (l, { s with outside := { s.outside with levels := rest } }) := by
  simp only [State.drawLevel, h]

theorem State.drawLevel_free (h : s.outside.levels = []) : s.drawLevel =
    (Config.freeLevel s.outside.drawn, { s with outside := { s.outside with drawn := s.outside.drawn + 1 } }) := by
  simp only [State.drawLevel, h, Outside.tick]

end

/-- Settles O11: each command by its own equation; a drawn level is the scripted one or a free value. -/
theorem gpioSettings : Obligations.GpioSettings := by
  intro s pin b
  refine ⟨rfl, ?_, rfl, exec_gpioWrite, rfl, exec_gpioSetedge, rfl, exec_subscriptions.1, rfl, exec_subscriptions.2⟩
  rw [exec_gpioSetdir]
  cases levels : s.outside.levels with
  | nil => rw [State.drawLevel_free levels]; rfl
  | cons l rest => rw [State.drawLevel_scripted levels]; rfl

/-! ### GPIO.READ (R222, R288) -/

/-- The waveform as GPIO.READ sees it. -/
theorem State.pwmLevel_eq (s : State) : s.pwmLevel =
    if s.pwm.enabled = false ∨ s.pwm.value = 0 then (false, s)
    else if s.pwm.value = s.pwm.range then (true, s) else s.drawLevel := by
  simp only [State.pwmLevel, Bool.or_eq_true, Bool.not_eq_true', decide_eq_true_eq]

/-- Settles O12. -/
theorem gpioRead : Obligations.GpioRead := by
  intro s pin
  refine ⟨rfl, ?_⟩
  simp only [exec, execGpioRead, State.noSuchPin_iff, State.raise, State.readPin, State.pwmLevel_eq]
  by_cases outOfRange : s.cfg.npins ≤ pin.toNat
  · simp only [if_pos outOfRange]
  simp only [if_neg outOfRange]
  by_cases pwm : pin.toNat = s.cfg.pinPwm
  · simp only [if_pos pwm]
    by_cases low : s.pwm.enabled = false ∨ s.pwm.value = 0
    · simp only [if_pos low]; rfl
    simp only [if_neg low]
    by_cases high : s.pwm.value = s.pwm.range
    · simp only [if_pos high]; rfl
    simp only [if_neg high]
    cases levels : s.outside.levels with
    | nil => simp only [State.drawLevel_free levels, levels, Val.bool, boolByte]
    | cons l rest => simp only [State.drawLevel_scripted levels, Val.bool, boolByte]
  · simp only [if_neg pwm]
    by_cases input : (s.pin pin.toNat).dir = .input
    · simp only [if_pos input]; rfl
    · simp only [if_neg input]; rfl

/-! ### GPIO.WAITEDGE (R225) -/

section
variable {s : State}

theorem State.waitEdgeDone_of_waiting {pin : Byte} {timeout : U32} {tAcc : Nat} {tDl : Option Nat}
    (held : s.port = .held { op := .waitEdge pin timeout, tAcc := tAcc, tDl := tDl }) (ev : EdgeEvent) :
    s.waitEdgeDone ev = if pin = ev.pin then s.complete .ok [.bool ev.level, .u32 ev.ts] else s := by
  simp only [State.waitEdgeDone, held]

theorem State.waitEdgeDone_of_not_waiting
    (notWaiting : ∀ p t tAcc tDl, s.port ≠ .held { op := .waitEdge p t, tAcc := tAcc, tDl := tDl }) (ev : EdgeEvent) :
    s.waitEdgeDone ev = s := by
  unfold State.waitEdgeDone
  split
  case h_1 held => exact absurd held (notWaiting _ _ _ _)
  case h_2 => rfl

end

/-- Settles O14: the checks, the completion by the pin's own event, and the deadline. -/
theorem gpioWaitedge : Obligations.GpioWaitedge := by
  intro s pin timeout
  refine ⟨rfl, ?_, fun notWaiting => State.waitEdgeDone_of_not_waiting notWaiting, fun tAcc tDl held => ⟨fun ev => ?_, ?_⟩⟩
  · simp only [exec, execGpioWaitedge, State.noSuchPin_iff, State.raise, Bool.or_eq_true, decide_eq_true_eq]
    rfl
  · rw [State.waitEdgeDone_of_waiting held]
    simp only [eq_comm (a := pin)]
    rfl
  · simp only [fire, deadline, held]
    rfl

/-! ### ENV.PIN (R210, R211) -/

/-- Which levels an edge mode detects (R211). -/
theorem EdgeMode.matches_iff {m : EdgeMode} {b : Byte} (bit : b.toNat ≤ 1) : m.matches (bitOf b) = true ↔
    m = .both ∨ (m = .rising ∧ b = 1) ∨ (m = .falling ∧ b = 0) := by
  have zero : b = 0#8 ↔ ¬b = 1#8 := by
    constructor
    · rintro rfl; decide
    · intro notOne; bv_omega
  cases m <;> simp [EdgeMode.matches, bitOf, zero]

/-- Settles O15: the checks of ENV.PIN in order, and the three items of the dispatch. -/
theorem envPin : Obligations.EnvPin := by
  refine ⟨fun s p l => ⟨rfl, ?_⟩, fun s ev => ⟨rfl, ?_⟩⟩
  · simp only [exec, execEnvPin, Bool.or_eq_true, State.noSuchPin_iff, notBit_iff]
    by_cases refused : s.cfg.npins ≤ p.toNat ∨ 1 < l.toNat
    · simp only [if_pos refused]
    simp only [if_neg refused, EdgeMode.matches_iff (Nat.not_lt.1 (not_or.1 refused).2)]
    rfl
  · simp only [State.dispatch, State.notifyEdge, State.waitEdgeDone_pins, State.pin,
      State.ownerHandler_pins]
    rfl

/-! ### The time base (R230 to R232, R470) -/

/-- Settles O16. -/
theorem clockCommands : Obligations.ClockCommands := fun _ => ⟨rfl, rfl, rfl, rfl, rfl, rfl⟩

/-- Time may advance to `t` exactly when no pending action is enabled or would be passed (R470). -/
theorem State.admits_iff (s : State) (t : Nat) : s.admits t = true ↔
    s.now < t ∧ ∀ a due, s.timers.get a = some due → s.now < due ∧ t ≤ due := by
  simp only [State.admits, Bool.and_eq_true, decide_eq_true_eq, List.all_eq_true]
  refine and_congr_right fun _ => ⟨fun each a due pending => ?_, fun each a _ => ?_⟩
  · simpa [pending] using each a (Action.mem_all a)
  · split
    · rfl
    case h_2 due pending => simpa using each a due pending

/-- Settles O18. -/
theorem envTime : Obligations.EnvTime := by
  intro s t
  refine ⟨rfl, fun admissible => ?_, fun inadmissible => ?_⟩
  · exact congrArg Host.Outcome.next (if_pos ((s.admits_iff _).2 admissible))
  · exact congrArg Host.Outcome.next (if_neg (mt (s.admits_iff _).1 inadmissible))

end Sys2Proof.Machine

/-! SUPPORT. The ADC master as equations (R250 to R261, R395): a register read by its answers, the start and the end of a
conversion, and the commands that ask for one. -/

namespace Sys2Proof.Machine

/-! ### The I2C port's answers (R104, R105) -/

section
variable {s : State} {ptr : Byte}

theorem State.readReg_of_nack (nack : s.outside.nextAck.1 = false) : s.readReg ptr = (none,
    { s with outside := s.outside.nextAck.2, bus := s.bus ++ [.write s.cfg.adcAddr [ptr] s.outside.nextAck.1] }) := by
  rw [State.readReg_eq]
  simp only [nack, Bool.false_eq_true, if_false]

theorem State.readReg_of_ack (ack : s.outside.nextAck.1 = true) : s.readReg ptr =
    (s.outside.nextAck.2.nextRead.1.map word16, { s with
      outside := s.outside.nextAck.2.nextRead.2
      bus := s.bus ++ [.write s.cfg.adcAddr [ptr] s.outside.nextAck.1] ++
        [.read s.cfg.adcAddr 2 s.outside.nextAck.2.nextRead.1] }) := by
  rw [State.readReg_eq]
  simp only [ack, if_true]

end

/-- An answer is the scripted one, else a free value (R104). -/
theorem Outside.answers (o : Outside) :
    (∀ a rest, o.acks = a :: rest → o.nextAck = (a, { o with acks := rest })) ∧
    (o.acks = [] → o.nextAck = (Config.freeAck o.drawn, { o with drawn := o.drawn + 1 })) ∧
    (∀ r rest, o.reads = r :: rest → o.nextRead = (r, { o with reads := rest })) ∧
    (o.reads = [] → o.nextRead = (Config.freeRead o.drawn, { o with drawn := o.drawn + 1 })) := by
  refine ⟨fun a rest acks => ?_, fun acks => ?_, fun r rest reads => ?_, fun reads => ?_⟩
  · simp only [Outside.nextAck, acks]
  · simp only [Outside.nextAck, acks, Outside.tick]
  · simp only [Outside.nextRead, reads]
  · simp only [Outside.nextRead, reads, Outside.tick]

/-- Settles O20: BUSY, or the probe by its two answers. -/
theorem adcOpen : Obligations.AdcOpen := by
  refine ⟨Outside.answers, fun s => ⟨rfl, ?_⟩⟩
  simp only [exec, execAdcOpen]
  cases phase : s.adc.phase with
  | converting ch req t0 => rfl
  | idle =>
    simp only [State.probe]
    cases ack : s.outside.nextAck.1 with
    | false => simp [State.readReg_of_nack ack, ack, phase, ptrConfig]
    | true => simp [State.readReg_of_ack ack, ack, phase, ptrConfig]

/-! ### A request for a conversion (R258) -/

section
variable {s : State} {ch : BitVec 2} {req : AdcReq}

theorem State.request_of_converting {ch' : BitVec 2} {req' : AdcReq} {t0 : Nat}
    (flight : s.adc.phase = .converting ch' req' t0) :
    s.request ch req = { s with adc := { s.adc with queue := s.adc.queue ++ [(ch, req)] } } := by
  simp only [State.request, flight]

variable (idle : s.adc.phase = .idle) (empty : s.adc.queue = [])
include idle empty

theorem State.request_of_ack (ack : s.outside.nextAck.1 = true) : s.request ch req = State.schedule { s with
    adc := { s.adc with phase := .converting ch req s.now, queue := [] }
    outside := s.outside.nextAck.2
    bus := s.bus ++ [.write s.cfg.adcAddr (ptrConfig :: bytes16 (adcConfigWord s.cfg ch)) true] } .adcPoll
    (s.now + s.cfg.adcPollUs) := by
  simp only [State.request, idle, empty, State.startNext_cons, ack, if_true]

/-- A request that could not start ends in the same step, and no other waits. -/
theorem State.request_of_nack (nack : s.outside.nextAck.1 = false) : s.request ch req = State.deliver { s with
    adc := { s.adc with phase := .idle, queue := [] }
    outside := s.outside.nextAck.2
    bus := s.bus ++ [.write s.cfg.adcAddr (ptrConfig :: bytes16 (adcConfigWord s.cfg ch)) false] } req .ioerr zero64 := by
  simp only [State.request, idle, empty, State.startNext_cons, nack, Bool.false_eq_true, if_false]
  exact State.startNext_nil (by simp)

end

/-- What a conversion command does once it holds the port. -/
theorem State.hold_request (s : State) (sound : s.AdcSound) (op : HeldOp) (n : BitVec 2) (req : AdcReq) :
    (s.hold op).request n req =
      match s.adc.phase with
      | .converting _ _ _ => { s with
          port := .held { op := op, tAcc := s.now, tDl := none }
          adc := { s.adc with queue := s.adc.queue ++ [(n, req)] } }
      | .idle =>
        if s.outside.nextAck.1 then State.schedule { s.hold op with
          adc := { s.adc with phase := .converting n req s.now, queue := [] }
          outside := s.outside.nextAck.2
          bus := s.bus ++ [.write s.cfg.adcAddr (ptrConfig :: bytes16 (adcConfigWord s.cfg n)) true] } .adcPoll
          (s.now + s.cfg.adcPollUs)
        else State.deliver { s.hold op with
          adc := { s.adc with phase := .idle, queue := [] }
          outside := s.outside.nextAck.2
          bus := s.bus ++ [.write s.cfg.adcAddr (ptrConfig :: bytes16 (adcConfigWord s.cfg n)) false] } req .ioerr
          zero64 := by
  unfold State.AdcSound at sound
  cases phase : s.adc.phase with
  | converting ch req' t0 => exact State.request_of_converting (s := s.hold op) phase
  | idle =>
    rw [phase] at sound
    simp only
    split
    case isTrue ack => exact State.request_of_ack (s := s.hold op) phase sound.2 ack
    case isFalse nack => exact State.request_of_nack (s := s.hold op) phase sound.2 (by simpa using nack)

/-- Settles O22: the refusals by their checks, and a request by the ADC's phase and the answer to its Config write. -/
theorem conversionCommands : Obligations.ConversionCommands := by
  intro s ch sound
  refine ⟨rfl, rfl, fun outOfRange => ?_, fun inRange absent => ?_, fun absent => ?_, fun present i op n req failed cases => ?_⟩
  · exact congrArg Host.Outcome.next (if_pos outOfRange)
  · exact congrArg Host.Outcome.next ((if_neg (Nat.not_lt.2 inRange)).trans (if_pos (decide_eq_true absent)))
  · exact congrArg Host.Outcome.next (if_pos (decide_eq_true absent))
  · have notAbsent : ¬s.adcAbsent = true := by simpa [State.adcAbsent] using present
    rcases cases with ⟨rfl, inRange, rfl, rfl, rfl, rfl⟩ | ⟨rfl, rfl, rfl, rfl, rfl⟩
    · refine congrArg Host.Outcome.next ((if_neg (Nat.not_lt.2 inRange)).trans ((if_neg notAbsent).trans ?_))
      rw [State.hold_request s sound]
      rfl
    · refine congrArg Host.Outcome.next ((if_neg notAbsent).trans ?_)
      rw [State.hold_request s sound]
      rfl

/-! ### The poll and the end of a conversion (R255) -/

/-- The end of a conversion is its delivery, and the start of the first waiting request from there. -/
theorem State.finish_eq (s : State) (done : AdcReq) (st : Status) (v : Real64) : s.finish done st v =
    (State.deliver { s with adc := { s.adc with phase := .idle } } done st v).startNext s.adc.queue := by
  unfold State.finish
  simp only [State.deliver_adc]

/-- Settles O23: a poll by the answers to its transactions; the end of a conversion by the answer to the next start. -/
theorem adcPoll : Obligations.AdcPoll := by
  refine ⟨fun s ch req t0 flight => ?poll, fun s given done st v delivered => ?finish⟩
  case poll =>
    simp only [fire, flight, State.poll]
    cases ack : s.outside.nextAck.1 with
    | false => simp only [State.readReg_of_nack ack, ack, if_true]; rfl
    | true =>
      simp only [State.readReg_of_ack ack, ack, Bool.true_eq_false, if_false]
      cases read : s.outside.nextAck.2.nextRead.1 with
      | none => rfl
      | some bytes =>
        simp only [Option.map_some, conversionDone_word16]
        by_cases done : bytes.1.getLsbD 7 = true
        · simp only [if_pos done]
          cases ack' : s.outside.nextAck.2.nextRead.2.nextAck.1 with
          | false =>
            rw [State.readReg_of_nack (by exact ack'), ack']
            rfl
          | true =>
            rw [State.readReg_of_ack (by exact ack'), ack']
            cases s.outside.nextAck.2.nextRead.2.nextAck.2.nextRead.1 <;> rfl
        · simp only [if_neg done]
          rfl
  case finish =>
    have delivered : given = State.deliver { s with adc := { s.adc with phase := .idle } } done st v :=
      delivered.trans (by cases done <;> rfl)
    have ends : s.finish done st v = given.startNext s.adc.queue := by rw [State.finish_eq, delivered]
    have adc : given.adc = { s.adc with phase := .idle } := by rw [delivered, State.deliver_adc]
    have outside : given.outside = s.outside := by rw [delivered, State.deliver_outside]
    have bus : given.bus = s.bus := by rw [delivered, State.deliver_bus]
    have now : given.now = s.now := by rw [delivered, State.deliver_now]
    have cfg : given.cfg = s.cfg := by rw [delivered, State.deliver_cfg]
    refine ⟨fun empty => ?_, fun ch req rest frame waiting config => ⟨fun ack => ?_, fun nack => ?_⟩⟩
    · rw [ends, empty]
      exact State.startNext_nil (by rw [adc]; exact empty)
    · rw [ends, waiting, State.startNext_cons, outside, if_pos ack, adc, bus, now, cfg, config]
      rfl
    · rw [ends, waiting, State.startNext_cons, outside, if_neg (by simp [nack]), adc, bus, cfg, State.finish_eq, config]
      rfl

end Sys2Proof.Machine

/-! SUPPORT. The commands of the PWM, the PID, the regulator and the reads as equations (R110, R281 to R287, R411 to R416,
R438 to R442). -/

namespace Sys2Proof.Machine

/-! ### Operand tests as their values (R605) -/

section
variable {x : Real64}

theorem realFinite_zero64 : realFinite zero64 = true := by decide

/-- A test of an operand against 0 is the test of its value, for a finite one. -/
theorem refused_of_nonpositive : (!realFinite x || realLe x zero64) = true ↔ realFinite x = false ∨ realRat x ≤ 0 := by
  cases finite : realFinite x with
  | false => simp
  | true => simp [realLe_iff finite realFinite_zero64, realRat_zero64]

theorem refused_of_negative : (!realFinite x || realLt x zero64) = true ↔ realFinite x = false ∨ realRat x < 0 := by
  cases finite : realFinite x with
  | false => simp
  | true => simp [realLt_iff finite realFinite_zero64, realRat_zero64]

end

/-! ### The PWM (R281 to R287) -/

/-- Settles O25: each command by its checks. -/
theorem pwmCommands : Obligations.PwmCommands := by
  intro s x n
  refine ⟨rfl, ?_, rfl, ?_, rfl, ?_, rfl, rfl, rfl, rfl, rfl, rfl⟩
  · simp only [exec, execPwmSetvalue, State.raise, State.regRunning, Bool.not_eq_true', decide_eq_true_eq]
    rfl
  · simp only [exec, execPwmSetrange, State.raise]
  · simp only [exec, execPwmSetdivisor, State.raise, Bool.or_eq_true, decide_eq_true_eq]

/-! ### The reads (R110) -/

/-- Settles O27: each read answers fields of the present state. -/
theorem snapshotReads : Obligations.SnapshotReads := by
  intro s index
  refine ⟨⟨rfl, rfl⟩, ⟨rfl, rfl⟩, ⟨rfl, rfl⟩, ⟨rfl, rfl⟩, ⟨rfl, rfl⟩, ⟨rfl, rfl⟩, ⟨rfl, rfl⟩, ⟨rfl, rfl⟩, ⟨rfl, rfl⟩,
    ⟨rfl, ?_⟩, ⟨rfl, rfl⟩⟩
  simp only [exec, execRegStatus, State.regRunning, Val.bool, boolByte, decide_eq_true_eq]

/-! ### The regulator's settings (R438 to R440) -/

/-- Rounding with halves away from zero is the floor of a half more, from 0 on; below 0 it is not positive. -/
theorem roundHa_of_nonneg {q : Rat} (h : 0 ≤ q) : roundHa q = (q + 1 / 2).floor := if_neg (not_lt.2 h)

theorem roundHa_nonpos {q : Rat} (h : q < 0) : roundHa q ≤ 0 := by
  rw [roundHa, if_pos h]
  have : 0 ≤ (-q + 1 / 2).floor := Rat.le_floor_iff.2 (by push_cast; linarith)
  omega

theorem floor_half_nonpos {q : Rat} (h : q < 0) : (q + 1 / 2).floor ≤ 0 := by
  have : (q + 1 / 2).floor < 1 := Rat.floor_lt_iff.2 (by push_cast; linarith)
  omega

theorem legalPeriod_iff (p : Int) : legalPeriod p = true ↔ 1 ≤ p ∧ p ≤ 2 ^ 31 - 1 := by
  simp [legalPeriod]

/-- The period of a time step, where it is legal, is the floor of a half more than the exact product. -/
theorem periodOf_spec {sec : Real64} {period : Int} (h : period = (realRat sec * 1000000 + 1 / 2).floor) :
    (legalPeriod (periodOf sec) = true ↔ ¬(period < 1 ∨ 2 ^ 31 - 1 < period)) ∧
      (legalPeriod (periodOf sec) = true → periodOf sec = period) := by
  rcases le_or_gt 0 (realRat sec * 1000000) with nonneg | negative
  · have same : periodOf sec = period := (roundHa_of_nonneg nonneg).trans h.symm
    rw [legalPeriod_iff, same]
    exact ⟨by omega, fun _ => rfl⟩
  · have low : periodOf sec ≤ 0 := roundHa_nonpos negative
    have low' : period ≤ 0 := h ▸ floor_half_nonpos negative
    rw [legalPeriod_iff]
    exact ⟨by omega, by omega⟩

/-- Settles O45: the operand's checks, then the field; the period is that of the operand itself. -/
theorem regSettings : Obligations.RegSettings := by
  intro s x period on hperiod
  obtain ⟨legal, same⟩ := periodOf_spec hperiod
  refine ⟨s.toReal x, fun _ => s.stores_toReal x, rfl, ?_, rfl, ?_, rfl, ?_⟩
  · simp only [exec, execRegSettarget, State.raise, Bool.not_eq_true']
  · simp only [exec, execRegSettimestep, State.raise, Bool.not_eq_true', ← Bool.not_eq_true, legal, not_not]
    by_cases illegal : period < 1 ∨ 2 ^ 31 - 1 < period
    · simp only [if_pos illegal]
    · simp only [if_neg illegal, same (legal.2 illegal)]
  · simp only [exec, execRegSetpower, State.raise, notBit_iff]
    rfl

/-! ### The PID's commands (R411 to R416) -/

/-- Every choice of bits gives a NaN (U8). -/
theorem realNaN_someNaN (bits : BitVec 64) : realNaN (someNaN bits) = true := by
  have payload : bits.toNat % 2 ^ 52 < 2 ^ 52 := Nat.mod_lt _ (by decide)
  have inf : infMag = 0x7FF * 2 ^ 52 := by decide
  have small : infMag + max 1 (bits.toNat % 2 ^ 52) < 2 ^ 63 := by omega
  unfold someNaN realNaN
  rw [realMag_signed _ small]
  simp only [decide_eq_true_eq]
  omega

theorem State.freshReal_nan (s : State) : s.freshReal .nan = (someNaN (Config.freeNaNBits s.outside.drawn),
    { s with outside := { s.outside with drawn := s.outside.drawn + 1 } }) := rfl

theorem State.regRunning_eq_false {s : State} (h : s.reg.state = .stopped) : s.regRunning = false := by
  simp [State.regRunning, h]

/-- An update that runs: the PID after it, and its drive (R411, R414). -/
theorem exec_pidUpdate_of_stopped {s : State} {error position : Real64} (fe : realFinite error = true)
    (fp : realFinite position = true) (stopped : s.reg.state = .stopped) {v : Real64} {t : State}
    (fresh : State.freshReal { s with pid := s.pid.after s.cfg.realFmt error (s.toReal position) }
      (s.pid.drive s.cfg.realFmt error position) = (v, t)) :
    exec (.pidUpdate error position) s = .next (t.reply .ok [.real v]) := by
  simp only [exec, execPidUpdate, fe, fp, State.regRunning_eq_false stopped, Bool.and_self, Bool.not_true,
    Bool.false_eq_true, if_false, fresh]

/-- Settles O42: the checks in order; the drive is a number, or some NaN. -/
theorem pidCommands : Obligations.PidCommands := by
  rintro s x y z f rfl
  refine ⟨s.toReal x, s.toReal y, s.toReal z, fun _ => s.stores_toReal x, fun _ => s.stores_toReal y,
    fun _ => s.stores_toReal z, rfl, ?gains, rfl, ?limits, rfl, fun infinite => ?illFormed, fun fx fy running => ?busy,
    fun fx fy stopped => ?runs⟩
  case gains =>
    simp only [exec, execPidSetgains, State.raise, Bool.not_eq_true', Bool.and_eq_false_iff, or_assoc]
  case limits => simp only [exec, execPidSetlimits, State.raise, Bool.not_eq_true', Bool.and_eq_false_iff]
  case illFormed =>
    simp only [exec, execPidUpdate, State.raise, Bool.not_eq_true', Bool.and_eq_false_iff, if_pos infinite]
    rfl
  case busy =>
    simp only [exec, execPidUpdate, State.raise, fx, fy, s.regRunning_iff.2 running, Bool.and_self, Bool.not_true,
      Bool.false_eq_true, if_false, if_true]
    rfl
  case runs =>
    rintro pTerm integrator iTerm dTerm drive rfl rfl rfl rfl hdrive
    have law : s.pid.drive s.cfg.realFmt x y = drive := hdrive.symm
    by_cases number : drive = .nan
    · have fresh := State.freshReal_nan { s with pid := s.pid.after s.cfg.realFmt x (s.toReal y) }
      refine ⟨_, _, fun isNumber => absurd number isNumber,
        fun _ => ⟨realNaN_someNaN (Config.freeNaNBits s.outside.drawn), rfl⟩, ?_⟩
      exact exec_pidUpdate_of_stopped fx fy stopped ((congrArg _ (law.trans number)).trans fresh)
    · have fresh := State.freshReal_num { s with pid := s.pid.after s.cfg.realFmt x (s.toReal y) } number
      refine ⟨_, _, fun _ => ⟨rfl, rfl⟩, fun isNaN => absurd isNaN number, ?_⟩
      exact exec_pidUpdate_of_stopped fx fy stopped ((congrArg _ law).trans fresh)

end Sys2Proof.Machine

/-! SUPPORT. The range finder and the flow counter as equations (R341 to R351, R370 to R374). -/

namespace Sys2Proof.Machine

/-! ### The range finder's commands (R346, R347, R349, R350) -/

/-- Settles O32: BUSY or a hold; at once, a hold with a deadline or a hold with a measurement; a checked speed. -/
theorem rangeCommands : Obligations.RangeCommands := by
  rintro s c start rfl
  refine ⟨rfl, ?measure, rfl, ?ready, fun tAcc tDl held => ?deadline, rfl, s.toReal c, fun _ => s.stores_toReal c, ?speed⟩
  case measure =>
    simp only [exec, execRangeMeasure]
    cases s.cfg.rangeMode <;> rfl
  case ready =>
    simp only [exec, execRangeReady]
    cases s.range.valid with
    | true => rfl
    | false => cases s.cfg.rangeMode <;> rfl
  case deadline =>
    simp only [fire, deadline, held]
    rfl
  case speed => simp only [exec, execRangeSetspeed, State.raise, refused_of_nonpositive]

/-! ### One measurement (R341, R342, R343, R351) -/

/-- A product of rationals that are not negative is their product, its zero positive. -/
theorem Num.mul_of_nonneg {p q : Rat} (hp : 0 ≤ p) (hq : 0 ≤ q) : (Num.fin p).mul (.fin q) = .fin (p * q) := by
  rw [Num.mul_of_isRat (.fin p) (.fin q)]
  simp only [Num.neg?, not_lt.2 hp, not_lt.2 hq, bne_self_eq_false, Bool.false_eq_true, if_false]
  split
  case isTrue zero => rw [zero]
  case isFalse => rfl

/-- A finite REAL of positive sign is its rational, which is not negative. -/
theorem realNum_of_positive {x : Real64} (finite : realFinite x = true) (sign : realSign x = false) :
    realNum x = .fin (realRat x) ∧ 0 ≤ realRat x := by
  constructor
  · have notNegZero : x ≠ negZero64 := by
      rintro rfl
      exact absurd sign (by decide)
    simp [realNum, realNaN_of_finite finite, finite, notNegZero]
  · by_contra negative
    have := sign_of_realRat finite (not_le.1 negative).ne
    rw [sign, decide_eq_false_iff_not] at this
    exact this (not_le.1 negative)

/-- The distance is the exact product of the width, the speed and 1/2 000 000, rounded once (R342). -/
theorem distance_eq {f : RealFmt} {speed : Real64} (finite : realFinite speed = true) (sign : realSign speed = false)
    (d : U32) : distance f speed d = roundRat f ((d.toNat : Rat) * realRat speed / 2000000) := by
  obtain ⟨exact, nonneg⟩ := realNum_of_positive finite sign
  have width : (0 : Rat) ≤ ((d.toNat : Int) : Rat) := by positivity
  rw [distance, exact, ofInt, Num.mul_of_nonneg width nonneg, Num.mul_of_nonneg (mul_nonneg width nonneg) (by norm_num)]
  simp only [Num.round]
  congr 1
  push_cast
  ring

/-- Settles O33: each step of a measurement by its rule. -/
theorem measurementSteps : Obligations.MeasurementSteps := by
  intro s level ts
  refine ⟨fun finite sign => distance_eq finite sign ts, fun a start => ?_, rfl, rfl, ?_⟩
  · rcases start with rfl | rfl | rfl <;> rfl
  · simp only [State.echoEdge, Bool.and_eq_true, decide_eq_true_eq, Bool.not_eq_true']
    rfl

/-- Settles O34: which command waits decides what the end of a host measurement does. -/
theorem hostMeasurementEnds : Obligations.HostMeasurementEnds := by
  rintro s r tAcc tDl start host rfl
  refine ⟨fun held => ⟨?_, ?_⟩, fun held => ⟨?_, ?_⟩⟩ <;> simp only [State.measureDone, host, State.hostResult, held] <;>
    rfl

/-! ### The sampler (R344, R345, R346) -/

section
variable {s : State} {r : Real64}

theorem State.samplerResult_of_invalid (invalid : s.range.valid = false) :
    s.samplerResult r = (s.publish r).completeReady.nextSample := by
  simp only [State.samplerResult, invalid, Bool.not_false, if_true]

theorem State.samplerResult_of_rejected (valid : s.range.valid = true) (attempt : s.range.attempt = .first)
    (rejected : s.outsideGate r = true) : s.samplerResult r =
      State.schedule { s with range := { s.range with attempt := .retry } } .rangeRetry s.startTime := by
  unfold State.samplerResult
  rw [if_neg (by simp [valid]), if_pos (by simp [attempt, rejected])]

theorem State.samplerResult_of_accepted (valid : s.range.valid = true)
    (accepted : s.range.attempt = .first → s.outsideGate r = false) (number : s.smoothed r ≠ .nan) :
    s.samplerResult r = State.nextSample { s with range := { s.range with
      filtered := (s.smoothed r).round s.cfg.realFmt, count := s.range.count + 1 } } := by
  unfold State.samplerResult
  rw [if_neg (by simp [valid]), if_neg (by simpa using accepted), State.storedReal_num s number]

/-- The gate compares exactly. -/
theorem State.outsideGate_iff (finite : realFinite r = true) (filtered : realFinite s.range.filtered = true)
    (gate : realFinite s.cfg.gateM = true) :
    s.outsideGate r = true ↔ realRat s.cfg.gateM < |realRat r - realRat s.range.filtered| := by
  rw [State.outsideGate,
    (isRat_realNum gate).lt ((isRat_realNum finite).sub (isRat_realNum filtered)).abs, decide_eq_true_eq]

/-- The smoothed value is exact. -/
theorem State.isRat_smoothed (finite : realFinite r = true) (filtered : realFinite s.range.filtered = true)
    (smoothK : realFinite s.cfg.smoothK = true) : (s.smoothed r).IsRat
      (realRat s.range.filtered + realRat s.cfg.smoothK * (realRat r - realRat s.range.filtered)) :=
  (isRat_realNum filtered).add ((isRat_realNum smoothK).mul ((isRat_realNum finite).sub (isRat_realNum filtered)))

end

/-- Settles O35: the first sample, the retry and the smoothing, each with the next start. -/
theorem samplerGate : Obligations.SamplerGate := by
  intro s r b start q sampler hstart finite filtered gate smoothK hq
  set s' : State := { s with range := { s.range with phase := .idle } } with hs'
  have done : s.measureDone r b = s'.samplerResult r := by simp only [State.measureDone, sampler, hs']
  have outside : s'.outsideGate r = true ↔ _ := State.outsideGate_iff (s := s') finite filtered gate
  have exact : (s'.smoothed r).IsRat q := hq ▸ State.isRat_smoothed (s := s') finite filtered smoothK
  rw [done]
  refine ⟨fun invalid => ?first, fun valid attempt far => ?retry, fun valid near => ?smooth⟩
  case first =>
    rw [State.samplerResult_of_invalid (by exact invalid)]
    subst hstart
    simp only [State.completeReady, State.publish, hs']
    cases s.port with
    | idle => rfl
    | held hold =>
      obtain ⟨op, tAcc, tDl⟩ := hold
      cases op <;> rfl
  case retry =>
    subst hstart
    exact State.samplerResult_of_rejected (s := s') valid attempt (outside.2 far)
  case smooth =>
    refine ⟨(s'.smoothed r).round s.cfg.realFmt, exact.round_of_ne _, fun zero => ?_, ?_⟩
    · exact (zero ▸ exact).realZero_round _
    · subst hstart
      refine State.samplerResult_of_accepted (s := s') valid (fun first => ?_) exact.ne_nan
      have notFar : ¬s'.outsideGate r = true := by
        rw [outside, not_lt]
        exact near.resolve_left fun retry => absurd (first.symm.trans retry) (by decide)
      simpa using notFar

/-! ### The flow counter (R370, R371, R373, R374) -/

/-- An edge by the two tests of its rule: whether the flow was stopped, and whether it reaches the armed target (R370). -/
theorem State.flowEdge_eq (s : State) (ts : U32) : s.flowEdge ts = { s with
    flow := { s.flow with
      count := s.flow.count + 1
      lastEdge := s.now
      flowing := true
      armed := s.flow.armed && decide (s.flow.count + 1 ≠ s.flow.target) }
    timers := { s.timers with flowIdle := some (s.now + s.cfg.flowIdleUs) }
    ntf :=
      let u := if s.flow.flowing then s.ntf
        else s.ntf.emit s.cfg.ntfDepth { kind := .flowStart, a := s.flow.count + 1, b := 0, c := ts }
      if s.flow.armed = true ∧ s.flow.count + 1 = s.flow.target then
        u.emit s.cfg.ntfDepth { kind := .flowTarget, a := s.flow.count + 1, b := 0, c := ts }
      else u } := by
  have started : s.flowCount.flowStart ts = { s.flowCount with
      flow := { s.flowCount.flow with flowing := true }
      ntf := if s.flow.flowing then s.ntf
        else s.ntf.emit s.cfg.ntfDepth { kind := .flowStart, a := s.flow.count + 1, b := 0, c := ts } } := by
    unfold State.flowStart
    cases flowing : s.flow.flowing <;> simp [flowing, State.emit, State.flowCount]
  unfold State.flowEdge State.flowTarget
  rw [started]
  by_cases hits : s.flow.armed = true ∧ s.flow.count + 1 = s.flow.target
  · obtain ⟨armed, (target : s.flow.count + 1#32 = s.flow.target)⟩ := hits
    simp [armed, target, State.emit, State.schedule, Timers.set]
  · cases armed : s.flow.armed with
    | false => simp [armed, State.schedule, Timers.set]
    | true =>
      have notTarget : s.flow.count + 1#32 ≠ s.flow.target := fun target => hits ⟨armed, target⟩
      simp [armed, notTarget, State.schedule, Timers.set]

/-- Settles O36. -/
theorem flowSteps : Obligations.FlowSteps := by
  rintro s ts n rfl
  exact ⟨s.flowEdge_eq ts, rfl⟩

/-- Settles O37: the counts are not negative, so a half more and the floor round them with halves away from zero. -/
theorem flowCommands : Obligations.FlowCommands := by
  rintro s litres n legal rfl
  refine ⟨rfl, rfl, rfl, ?_⟩
  simp only [exec, execFlowNotifyafter, State.raise, refused_of_negative]
  by_cases refused : realFinite litres = false ∨ realRat litres < 0
  · simp only [if_pos refused]
  simp only [if_neg refused]
  have edges : edgesFor s.cfg litres = (realRat litres * realRat s.cfg.countsPerLitre + 1 / 2).floor := by
    obtain ⟨-, -, -, times, -, -, finite, -⟩ := (wellFormed_iff s.cfg).1 legal
    have calibration : realLt zero64 s.cfg.countsPerLitre = true := by
      simp only [Config.timesPositive, Bool.and_eq_true] at times
      tauto
    rw [Config.realsFinite, List.all_eq_true] at finite
    rw [realLt_iff realFinite_zero64 (finite _ (by simp [Config.reals])), realRat_zero64] at calibration
    exact roundHa_of_nonneg (mul_nonneg (not_lt.1 (not_or.1 refused).2) calibration.le)
  rw [edges]

/-! ### One Target after exactly `n` edges (R370, R374) -/

/-- The Target records of a queue. -/
def targets (queue : List Ntf) : Nat := queue.countP fun r => decide (r.kind = .flowTarget)

section
variable {d : Nat} {u : NtfUnit} {n : Ntf}

theorem targets_emit_of_ne (other : n.kind ≠ .flowTarget) : targets (u.emit d n).queue = targets u.queue := by
  rcases u.emit_cases d n with ⟨-, e⟩ | ⟨-, -, e⟩ | ⟨-, -, e⟩ <;> simp [e, targets, other]

theorem NtfUnit.emit_of_room (enabled : u.enable.getLsbD n.kind.bit = true) (room : u.queue.length < d) :
    u.emit d n = { u with queue := u.queue ++ [n] } := by
  rcases u.emit_cases d n with ⟨disabled, -⟩ | ⟨-, full, -⟩ | ⟨-, -, e⟩
  · simp [enabled] at disabled
  · omega
  · exact e

theorem targets_emit_target (kind : n.kind = .flowTarget) (enabled : u.enable.getLsbD 0 = true)
    (room : u.queue.length < d) : targets (u.emit d n).queue = targets u.queue + 1 := by
  rw [NtfUnit.emit_of_room (by rw [kind]; exact enabled) room]
  simp [targets, kind]

end

/-- A disarmed counter stays so, and queues no Target. -/
theorem foldl_flowEdge_of_disarmed (edges : List U32) {s : State} (disarmed : s.flow.armed = false) :
    (edges.foldl State.flowEdge s).flow.armed = false ∧
      targets (edges.foldl State.flowEdge s).ntf.queue = targets s.ntf.queue := by
  induction edges generalizing s with
  | nil => exact ⟨disarmed, rfl⟩
  | cons ts edges ih =>
    have queue : targets (s.flowEdge ts).ntf.queue = targets s.ntf.queue := by
      rw [State.flowEdge_eq]
      simp only [disarmed, Bool.false_eq_true, false_and, if_false]
      split
      · rfl
      · exact targets_emit_of_ne (by simp)
    obtain ⟨armed, kept⟩ := ih (s := s.flowEdge ts) (by simp [State.flowEdge_eq, disarmed])
    exact ⟨armed, kept.trans queue⟩

/-- A counter armed `n` edges ahead, with room for the records to come. -/
structure State.ArmedAhead (s : State) (n : U32) : Prop where
  armed : s.flow.armed = true
  target : s.flow.target = s.flow.count + n
  enabled : s.ntf.enable.getLsbD 0 = true
  room : s.ntf.queue.length + (if s.flow.flowing then 1 else 2) ≤ s.cfg.ntfDepth

/-- The edge that is not the last: the counter is armed one edge less ahead, and no Target is queued. -/
theorem State.ArmedAhead.flowEdge {s : State} {n : U32} (h : s.ArmedAhead n) (more : n ≠ 1) (ts : U32) :
    (s.flowEdge ts).ArmedAhead (n - 1) ∧ targets (s.flowEdge ts).ntf.queue = targets s.ntf.queue := by
  obtain ⟨armed, target, enabled, room⟩ := h
  have notYet : s.flow.count + 1 ≠ s.flow.target := by
    rw [target]
    exact fun e => more (add_left_cancel e).symm
  rw [State.flowEdge_eq]
  simp only [notYet, and_false, if_false]
  refine ⟨⟨?_, ?_, ?_, ?_⟩, ?_⟩
  · exact (Bool.and_eq_true _ _).mpr ⟨armed, decide_eq_true notYet⟩
  · simp only [target]
    rw [add_assoc]
    congr 1
    exact (add_sub_cancel 1 n).symm
  · simp only
    split
    · exact enabled
    · rwa [NtfUnit.emit_enable]
  · cases flowing : s.flow.flowing with
    | true => simpa [flowing] using room
    | false =>
      have room : s.ntf.queue.length + 2 ≤ s.cfg.ntfDepth := by simpa [flowing] using room
      simp only [Bool.false_eq_true, if_false, if_true]
      rw [NtfUnit.emit_of_room enabled (by omega)]
      simp only [List.length_append, List.length_singleton]
      omega
  · split
    · rfl
    · exact targets_emit_of_ne (by simp)

/-- The last edge: the counter is disarmed, and one Target is queued. -/
theorem State.ArmedAhead.lastEdge {s : State} (h : s.ArmedAhead 1) (ts : U32) :
    (s.flowEdge ts).flow.armed = false ∧ targets (s.flowEdge ts).ntf.queue = targets s.ntf.queue + 1 := by
  obtain ⟨armed, target, enabled, room⟩ := h
  rw [State.flowEdge_eq]
  simp only [armed, target, and_self, if_true]
  refine ⟨by simp, ?_⟩
  cases flowing : s.flow.flowing with
  | true =>
    have room : s.ntf.queue.length + 1 ≤ s.cfg.ntfDepth := by simpa [flowing] using room
    exact targets_emit_target rfl enabled (by simpa using room)
  | false =>
    have room : s.ntf.queue.length + 2 ≤ s.cfg.ntfDepth := by simpa [flowing] using room
    simp only [Bool.false_eq_true, if_false]
    rw [targets_emit_target rfl (by rwa [NtfUnit.emit_enable]), targets_emit_of_ne (by simp)]
    rw [NtfUnit.emit_of_room enabled (by omega)]
    simp only [List.length_append, List.length_singleton]
    omega

theorem foldl_flowEdge_of_armed (edges : List U32) {s : State} {n : U32} (h : s.ArmedAhead n) (ahead : n ≠ 0) :
    (edges.length < n.toNat → (edges.foldl State.flowEdge s).flow.armed = true ∧
      targets (edges.foldl State.flowEdge s).ntf.queue = targets s.ntf.queue) ∧
    (n.toNat ≤ edges.length → (edges.foldl State.flowEdge s).flow.armed = false ∧
      targets (edges.foldl State.flowEdge s).ntf.queue = targets s.ntf.queue + 1) := by
  have positive : 0 < n.toNat := by
    rw [Nat.pos_iff_ne_zero]
    exact fun zero => ahead (BitVec.eq_of_toNat_eq (by simpa using zero))
  induction edges generalizing s n with
  | nil => exact ⟨fun _ => ⟨h.armed, rfl⟩, fun none => by simp at none; omega⟩
  | cons ts edges ih =>
    by_cases last : n = 1
    · subst last
      obtain ⟨disarmed, queued⟩ := h.lastEdge ts
      obtain ⟨armed, kept⟩ := foldl_flowEdge_of_disarmed edges disarmed
      exact ⟨fun few => by simp at few, fun _ => ⟨armed, kept.trans queued⟩⟩
    · obtain ⟨armed, same⟩ := h.flowEdge last ts
      have less : (n - 1).toNat = n.toNat - 1 := by
        have : n.toNat ≠ 1 := fun one => last (BitVec.eq_of_toNat_eq (by simpa using one))
        bv_omega
      have more : 1 < n.toNat := by
        have : n.toNat ≠ 1 := fun one => last (BitVec.eq_of_toNat_eq (by simpa using one))
        omega
      have rest := ih armed (by intro zero; rw [zero] at less; simp at less; omega) (by omega)
      rw [same, less] at rest
      simp only [List.length_cons, List.foldl_cons]
      exact ⟨fun few => rest.1 (by omega), fun enough => rest.2 (by omega)⟩

/-- Settles O38: the first `n - 1` edges keep the counter armed, the next one disarms it, and a disarmed one stays so. -/
theorem flowTargetOnce : Obligations.FlowTargetOnce := by
  intro s n edges armed target ahead enabled room
  refine foldl_flowEdge_of_armed edges ⟨armed, target, enabled, ?_⟩ ahead
  split <;> omega

end Sys2Proof.Machine

/-! SUPPORT. The temperature decoder: the pulse that a fall ends, the frame it shifts together, and the checks of the
frame word (R310 to R319). -/

namespace Sys2Proof.Machine

/-! ### One pulse (R311, R312, R313) -/

/-- The length of the pulse that a fall at `ts` ends; without a rise to measure from it is the bit period, a SYNC. -/
def Temp.pulse (c : Config) (t : Temp) (ts : U32) : Nat :=
  match t.lastRise with
  | none => c.tBitUs
  | some r => (ts - r).toNat % 2 ^ c.tsWidth

/-- A pulse is classified exactly against the bit period and half of it (R311). -/
theorem Temp.symbolAt_eq (c : Config) (t : Temp) (ts : U32) : t.symbolAt c ts =
    if c.tBitUs ≤ t.pulse c ts then .sync else if 2 * t.pulse c ts < c.tBitUs then .bit1 else .bit0 := by
  unfold Temp.symbolAt Temp.pulse
  cases t.lastRise with
  | none => exact (if_pos le_rfl).symm
  | some r =>
    simp only [classify, duration_toNat]
    by_cases long : c.tBitUs ≤ (ts - r).toNat % 2 ^ c.tsWidth
    · rw [if_pos long, if_neg (by omega), if_neg (by omega)]
    · rw [if_neg long, if_pos (not_le.1 long)]

variable {c : Config} {t : Temp} {ts : U32}

theorem Temp.fall_of_sync (long : c.tBitUs ≤ t.pulse c ts) : t.fall c ts = { t with
    lastRise := none, bitCount := 0, word := 0
    syncErr := if 0 < t.bitCount then t.syncErr + 1 else t.syncErr } := by
  unfold Temp.fall
  rw [t.symbolAt_eq, if_pos long]
  rfl

theorem Temp.fall_of_bit (short : t.pulse c ts < c.tBitUs) : t.fall c ts =
    { t with lastRise := none }.shiftIn c (decide (2 * t.pulse c ts < c.tBitUs)) ts := by
  unfold Temp.fall
  rw [t.symbolAt_eq, if_neg (not_le.2 short)]
  by_cases one : 2 * t.pulse c ts < c.tBitUs
  · rw [if_pos one, decide_eq_true one]
  · rw [if_neg one, decide_eq_false one]

/-- A frame's checks neither read nor change the accumulator and the pending rise. -/
theorem Temp.decodeFrame_with (t : Temp) (c : Config) (w ts : U32) (rise : Option U32) (n : Nat) (word : U32) :
    ({ t with lastRise := rise, bitCount := n, word := word } : Temp).decodeFrame c w ts =
      { t.decodeFrame c w ts with lastRise := rise, bitCount := n, word := word } := by
  unfold Temp.decodeFrame Temp.reject
  simp only
  split_ifs <;> rfl

theorem toNat_decide (p : Prop) [Decidable p] : (decide p).toNat = if p then 1 else 0 := by
  by_cases h : p <;> simp [h]

/-- The bit of a short pulse is shifted in last; the last bit of a frame decodes it (R313). -/
theorem Temp.fall_of_short (short : t.pulse c ts < c.tBitUs) {w : U32}
    (shifted : w.toNat =
      (2 * t.word.toNat + if 2 * t.pulse c ts < c.tBitUs then 1 else 0) % 2 ^ c.tempFrameBits) :
    t.fall c ts = if t.bitCount + 1 = c.tempFrameBits then
      { t.decodeFrame c w ts with lastRise := none, bitCount := 0, word := 0 }
    else { t with lastRise := none, bitCount := t.bitCount + 1, word := w } := by
  have word : BitVec.ofNat 32 ((t.word.toNat * 2 + (decide (2 * t.pulse c ts < c.tBitUs)).toNat) %
      2 ^ c.tempFrameBits) = w := by
    rw [Nat.mul_comm, toNat_decide, ← shifted, BitVec.ofNat_toNat, BitVec.setWidth_eq]
  rw [fall_of_bit short, Temp.shiftIn]
  simp only [word]
  split
  · rw [t.decodeFrame_with c w ts none (t.bitCount + 1) w]
  · rfl

/-- Settles O28. -/
theorem tempEdges : Obligations.TempEdges := by
  intro s ts
  refine ⟨rfl, fun d length => ?_⟩
  have pulse : s.temp.pulse s.cfg ts = d := by
    unfold Temp.pulse
    rcases length with ⟨rise, rfl⟩ | ⟨r, rise, rfl⟩ <;> rw [rise]
  subst pulse
  exact ⟨fun long => congrArg (fun t => { s with temp := t }) (Temp.fall_of_sync long),
    fun short w shifted => congrArg (fun t => { s with temp := t }) (Temp.fall_of_short short shifted)⟩

/-! ### A whole frame (R310) -/

/-- The bit of a pulse given by its two edges. -/
def pulseBit (c : Config) (p : U32 × U32) : Nat := if 2 * ((p.2 - p.1).toNat % 2 ^ c.tsWidth) < c.tBitUs then 1 else 0

theorem pulseBit_le_one (c : Config) (p : U32 × U32) : pulseBit c p ≤ 1 := by
  unfold pulseBit
  split <;> decide

/-- One more bit neither overflows a frame that has room for it, nor the word. -/
theorem shifted_lt {v n bits bit : Nat} (fits : v < 2 ^ n) (room : n + 1 ≤ bits) (wide : bits ≤ 32) (one : bit ≤ 1) :
    2 * v + bit < 2 ^ (n + 1) ∧ 2 * v + bit < 2 ^ bits ∧ 2 * v + bit < 2 ^ 32 := by
  have bound : 2 * v + bit < 2 ^ (n + 1) := by rw [Nat.pow_succ]; omega
  exact ⟨bound, bound.trans_le (Nat.pow_le_pow_right (by decide) room),
    bound.trans_le (Nat.pow_le_pow_right (by decide) (room.trans wide))⟩

/-- A whole short pulse, after the bits of the number `v`. -/
theorem Temp.fall_rise_of_short {c : Config} {t : Temp} {p : U32 × U32} {v : Nat} (word : t.word.toNat = v)
    (inFrame : 2 * v + pulseBit c p < 2 ^ c.tempFrameBits) (inWord : 2 * v + pulseBit c p < 2 ^ 32)
    (short : (p.2 - p.1).toNat % 2 ^ c.tsWidth < c.tBitUs) :
    (t.rise p.1).fall c p.2 = if t.bitCount + 1 = c.tempFrameBits then
      { t.decodeFrame c (BitVec.ofNat 32 (2 * v + pulseBit c p)) p.2 with lastRise := none, bitCount := 0, word := 0 }
    else { t with lastRise := none, bitCount := t.bitCount + 1, word := BitVec.ofNat 32 (2 * v + pulseBit c p) } := by
  have shifted : (BitVec.ofNat 32 (2 * v + pulseBit c p)).toNat =
      (2 * t.word.toNat + pulseBit c p) % 2 ^ c.tempFrameBits := by
    rw [word, BitVec.toNat_ofNat, Nat.mod_eq_of_lt inWord, Nat.mod_eq_of_lt inFrame]
  refine (Temp.fall_of_short (t := t.rise p.1) short shifted).trans ?_
  rw [Temp.rise, t.decodeFrame_with c _ _ (some p.1) t.bitCount t.word]

/-- The pulses that complete a frame, from an unfinished one whose `bitCount` bits have the number `v`. -/
theorem foldl_pulse_of_complete {c : Config} (wide : c.tempFrameBits ≤ 32) (last : U32 × U32)
    (first : List (U32 × U32)) : ∀ {t : Temp} {v : Nat}, t.word.toNat = v → v < 2 ^ t.bitCount →
    t.bitCount + first.length + 1 = c.tempFrameBits →
    (∀ p ∈ first ++ [last], (p.2 - p.1).toNat % 2 ^ c.tsWidth < c.tBitUs) →
    (first ++ [last]).foldl (fun t p => (t.rise p.1).fall c p.2) t =
      { (t.decodeFrame c (BitVec.ofNat 32 ((first ++ [last]).foldl (fun n p => 2 * n + pulseBit c p) v)) last.2) with
        lastRise := none, bitCount := 0, word := 0 } := by
  induction first with
  | nil =>
    intro t v word fits length short
    have complete : t.bitCount + 1 = c.tempFrameBits := length
    obtain ⟨-, inFrame, inWord⟩ := shifted_lt fits complete.le wide (pulseBit_le_one c last)
    exact (Temp.fall_rise_of_short word inFrame inWord (short last (List.mem_singleton_self last))).trans
      (if_pos complete)
  | cons p first ih =>
    intro t v word fits length short
    rw [List.length_cons] at length
    obtain ⟨bound, inFrame, inWord⟩ :=
      shifted_lt fits (bits := c.tempFrameBits) (by omega) wide (pulseBit_le_one c p)
    have step := (Temp.fall_rise_of_short word inFrame inWord (short p (List.mem_cons_self ..))).trans
      (if_neg (by omega))
    rw [List.cons_append, List.foldl_cons, List.foldl_cons, step,
      ih (v := 2 * v + pulseBit c p) (by rw [BitVec.toNat_ofNat, Nat.mod_eq_of_lt inWord]) bound
        (by rw [← length]; simp only; omega) (fun q mem => short q (List.mem_cons_of_mem p mem)),
      t.decodeFrame_with c _ _ none (t.bitCount + 1)]

/-- Settles O30, by induction over the pulses before the last. -/
theorem tempFrameAssembled : Obligations.TempFrameAssembled := by
  intro c t first last count word length wide short
  exact foldl_pulse_of_complete wide last first (v := 0) (by rw [word]; rfl) (by rw [count]; exact Nat.one_pos)
    (by rw [count]; omega) short

/-! ### The checks of a frame word (R314 to R318) -/

/-- A packet's set bits are those of its data and its parity bit. -/
theorem countP_packet (pk : BitVec 9) :
    (List.range 9).countP (fun i => pk.getLsbD i) = popcount (packetData pk) + (pk.getLsbD 0).toNat := by
  have data : (List.range 8).countP (fun i => pk.getLsbD (i + 1)) = popcount (packetData pk) := by
    refine List.countP_congr fun i mem => ?_
    rw [packetData, BitVec.getLsbD_extractLsb', decide_eq_true (List.mem_range.1 mem), Bool.true_and, Nat.add_comm]
  rw [List.range_succ_eq_map, List.countP_cons, List.countP_map, ← data]
  cases pk.getLsbD 0 <;> rfl

/-- The parity bit makes a packet even exactly when the number of its set bits is even. -/
theorem packetEven_eq (pk : BitVec 9) :
    packetEven pk = decide ((List.range 9).countP (fun i => pk.getLsbD i) % 2 = 0) := by
  rw [countP_packet, packetEven, parity]
  cases pk.getLsbD 0 <;> simp <;> omega

/-- The bits of a packet cut out of a word. -/
theorem countP_extract (w : U32) (start : Nat) :
    (List.range 9).countP (fun i => (w.extractLsb' start 9).getLsbD i) =
      (List.range 9).countP (fun i => w.getLsbD (start + i)) :=
  List.countP_congr fun i mem => by
    rw [BitVec.getLsbD_extractLsb', decide_eq_true (List.mem_range.1 mem), Bool.true_and]

section
variable {c : Config} (bits : c.tempFrameBits = 20) (w : U32)
include bits

theorem parityOk_packets : parityOk (packets c w) =
    (decide ((List.range 9).countP (fun i => w.getLsbD (10 + i)) % 2 = 0) &&
      decide ((List.range 9).countP (fun i => w.getLsbD i) % 2 = 0)) := by
  rw [parityOk, packet0_packets bits, packet1_packets bits, packetEven_eq, packetEven_eq, countP_extract, countP_extract]
  simp only [Nat.zero_add]

theorem prefixOk_packets : prefixOk (packets c w) = decide (w.toNat / 2 ^ 14 % 2 ^ 5 = 0) := by
  rw [prefixOk, packet0_packets bits, packetData]
  refine decide_eq_decide.2 (BitVec.toNat_inj.symm.trans ?_)
  change _ = 0 ↔ _
  simp only [BitVec.extractLsb'_toNat, Nat.shiftRight_eq_div_pow]
  omega

theorem toNat_rawTemp_packets :
    (rawTemp (packets c w)).toNat = w.toNat / 2 ^ 11 % 2 ^ 3 * 2 ^ 8 + w.toNat / 2 % 2 ^ 8 := by
  rw [rawTemp, packet0_packets bits, packet1_packets bits, packetData, packetData, BitVec.toNat_append,
    ← Nat.shiftLeft_add_eq_or_of_lt (BitVec.isLt _)]
  simp only [BitVec.extractLsb'_toNat, Nat.shiftRight_eq_div_pow, Nat.shiftLeft_eq]
  omega

end

/-- Settles O29. -/
theorem tempDecodeFrame : Obligations.TempDecodeFrame := by
  rintro c t w ts value even0 even1 prefixZero inRange bits rfl rfl rfl valueEq rangeEq
  have scaled : scaleTemp c (rawTemp (packets c w)) = value := by
    rw [valueEq, scaleTemp, toNat_rawTemp_packets bits]
  unfold Temp.decodeFrame
  simp only [parityOk_packets bits, prefixOk_packets bits, scaled, ← rangeEq, Bool.not_eq_true']
  rfl

end Sys2Proof.Machine

/-! SUPPORT. The reset state meets every invariant (R701, R702), under each configuration that reset takes unrounded. -/

namespace Sys2Proof.Machine

/-! ### What a well-formed configuration has -/

section
variable {c : Config} (legal : c.wellFormed = true)
include legal

theorem finiteIn_of_wellFormed {x : Real64} (mem : x ∈ c.reals) : FiniteIn c.realFmt x := by
  obtain ⟨-, -, -, -, -, -, finite, -⟩ := (wellFormed_iff c).1 legal
  exact ⟨List.all_eq_true.1 finite x mem, inFormat_of_wellFormed legal mem⟩

theorem positive_of_wellFormed : realLt zero64 c.countsPerLitre = true ∧ realLt zero64 c.speed0 = true := by
  obtain ⟨-, -, -, times, -⟩ := (wellFormed_iff c).1 legal
  simp only [Config.timesPositive, Bool.and_eq_true] at times
  tauto

theorem pwmInRange_of_wellFormed :
    1 ≤ c.pwmDiv0.toNat ∧ c.pwmDiv0.toNat ≤ c.pwmDivMax ∧ 1 ≤ c.pwmRange0.toNat := by
  obtain ⟨-, -, inRange, -⟩ := (wellFormed_iff c).1 legal
  simpa [Config.pwmInRange, and_assoc] using inRange

theorem frame_of_wellFormed : 18 ≤ c.tempFrameBits ∧ c.tempFrameBits ≤ 32 := by
  obtain ⟨-, -, -, -, -, -, -, -, formats, -⟩ := (wellFormed_iff c).1 legal
  simp only [Config.formatsOk, Bool.and_eq_true, decide_eq_true_eq] at formats
  exact ⟨formats.1.2, formats.2⟩

/-- The period of the initial time step (R47, R439). -/
theorem period_of_wellFormed : legalPeriod (periodOf c.regTimestep0) = true := by
  obtain ⟨-, -, -, -, -, -, -, sizes, -⟩ := (wellFormed_iff c).1 legal
  simp only [Config.sizesOk, Bool.and_eq_true, Bool.or_eq_true, decide_eq_true_eq] at sizes
  rcases sizes.2 with isDefault | ok
  · rw [isDefault, periodOf_one64]; rfl
  · exact ok

end

/-- A positive REAL has no sign. -/
theorem realSign_of_positive {x : Real64} (finite : realFinite x = true) (positive : realLt zero64 x = true) :
    realSign x = false := by
  rw [realLt_iff realFinite_zero64 finite, realRat_zero64] at positive
  rw [← sign_of_realRat finite positive.ne', decide_eq_false (not_lt.2 positive.le)]

theorem realNaN_zero64 : realNaN zero64 = false := by decide

theorem realLe_zero64_zero64 : realLe zero64 zero64 = true := by decide

theorem realLe_zero64_one64 : realLe zero64 one64 = true := by decide

/-! ### The reset state -/

section
variable (c : Config) (ack : Bool) (answer : Option (Byte × Byte))

/-- At reset no command holds the port, no conversion is in flight, and the regulator is stopped. -/
theorem scheduleSound_resetAs : (State.resetAs c ack answer).ScheduleSound :=
  ⟨fun _ _ _ => Nat.zero_le _, rfl, ⟨rfl, rfl⟩, rfl⟩

/-- The first measurement is the sampler's, and only BACKGROUND mode schedules it (R702). -/
theorem rangeLoop_resetAs : (State.resetAs c ack answer).RangeLoop := by
  refine ⟨⟨by simp [State.resetAs, noTimers], by simp [State.resetAs, noTimers]⟩, ?_⟩
  cases mode : c.rangeMode <;> simp [State.resetAs, noTimers, mode, State.awaitsRange]

theorem sound_resetAs : (State.resetAs c ack answer).Sound :=
  ⟨scheduleSound_resetAs c ack answer, ⟨rfl, rfl, rfl, fun _ => rfl⟩, trivial, rangeLoop_resetAs c ack answer,
    fun _ _ _ _ _ triggered => nomatch triggered⟩

variable {c} (legal : c.wellFormed = true)
include legal

theorem pwmLegal_resetAs : (State.resetAs c ack answer).PwmLegal := by
  obtain ⟨positive, bounded, range⟩ := pwmInRange_of_wellFormed legal
  exact ⟨positive, bounded, range, Nat.zero_le _, realLe_zero64_zero64, realLe_zero64_one64⟩

theorem decoderLegal_resetAs : (State.resetAs c ack answer).DecoderLegal :=
  ⟨(Nat.zero_lt_succ 17).trans_le (frame_of_wellFormed legal).1, Nat.one_pos⟩

theorem unitReals_resetAs : (State.resetAs c ack answer).UnitReals := by
  have zero : FiniteIn c.realFmt zero64 := ⟨realFinite_zero64, inFormat_zero64 _⟩
  have timeStep : FiniteIn c.realFmt c.regTimestep0 := finiteIn_of_wellFormed legal (by simp [Config.reals])
  have speed : FiniteIn c.realFmt c.speed0 := finiteIn_of_wellFormed legal (by simp [Config.reals])
  have positive := (positive_of_wellFormed legal).2
  have period : legalPeriod ((periodOf c.regTimestep0).toNat : Int) = true := by
    have := period_of_wellFormed legal
    simp only [legalPeriod, Bool.and_eq_true, decide_eq_true_eq] at this ⊢
    omega
  exact {
    pid := ⟨zero, zero, zero, zero, zero, zero, zero⟩
    reg := ⟨zero, timeStep, zero, zero, period⟩
    range := ⟨speed, realSign_of_positive speed.1 positive, fun _ => positive, realNaN_zero64, zero.2⟩
    sample := zero
    frac := zero }

end

theorem wellFormed_vector : Config.vector.wellFormed = true := by decide +kernel

/-- Settles O58. -/
theorem resetMeetsInvariants : Obligations.ResetMeetsInvariants := by
  refine ⟨?_, wellFormed_vector, rfl⟩
  rintro c ack answer s legal rfl
  exact ⟨rfl, sound_resetAs c.rounded ack answer, pwmLegal_resetAs ack answer legal,
    ⟨Nat.zero_le _, Nat.zero_le _⟩, decoderLegal_resetAs ack answer legal,
    ⟨Nat.two_pow_pos _, List.length_replicate ..⟩, (realsLegal_iff _).2 (unitReals_resetAs ack answer legal),
    le_rfl, fun _ => le_rfl, le_rfl⟩

end Sys2Proof.Machine

/-! SUPPORT. The resistor ladder's classification: the least gap of the table, and its nearest entry (R392). -/

namespace Sys2Proof.Machine

/-! ### The least gap between entries (R392) -/

/-- Values at least `t` apart have gaps of at least `t`. -/
theorem le_of_mem_gaps {t : Rat} : ∀ {values : List Rat}, values.Pairwise (fun a b => t ≤ |a - b|) →
    ∀ gap ∈ gaps values, t ≤ gap
  | [], _, gap, mem => nomatch mem
  | [_], _, gap, mem => nomatch mem
  | a :: b :: rest, apart, gap, mem => by
    rw [List.pairwise_cons] at apart
    rcases List.mem_cons.1 mem with rfl | later
    · exact apart.1 b (List.mem_cons_self ..)
    · exact le_of_mem_gaps apart.2 gap later

/-- In sorted order the gaps between neighbours bound the gaps between all: every later entry lies beyond the next. -/
theorem pairwise_of_lt_gaps {t : Rat} : ∀ {values : List Rat}, values.Pairwise (· ≤ ·) →
    (∀ gap ∈ gaps values, t < gap) → values.Pairwise (fun a b => t < |a - b|)
  | [], _, _ => .nil
  | [_], _, _ => List.pairwise_singleton ..
  | a :: b :: rest, sorted, wide => by
    rw [List.pairwise_cons] at sorted
    obtain ⟨first, sorted⟩ := sorted
    refine .cons (fun x mem => ?_)
      (pairwise_of_lt_gaps sorted fun gap later => wide gap (List.mem_cons_of_mem _ later))
    have a_le_b : a ≤ b := first b (List.mem_cons_self ..)
    have b_le_x : b ≤ x := by
      rcases List.mem_cons.1 mem with rfl | later
      · exact le_rfl
      · exact (List.pairwise_cons.1 sorted).1 x later
    have gap : t < |a - b| := wide _ (List.mem_cons_self ..)
    rw [abs_sub_comm, abs_of_nonneg (by linarith)] at gap ⊢
    linarith

/-- Whether values are apart does not depend on their order. -/
theorem pairwise_sort_iff {r : Rat → Prop} (values : List Rat) :
    (values.insertionSort (· ≤ ·)).Pairwise (fun a b => r |a - b|) ↔ values.Pairwise (fun a b => r |a - b|) :=
  (List.perm_insertionSort (· ≤ ·) values).pairwise_iff fun {a b} apart => by rwa [abs_sub_comm]

/-- The tolerance is half the least gap between two entries of the table. -/
theorem ladderTol_eq {table : List Real64} {tol : Rat}
    (apart : (table.map realRat).Pairwise (fun a b => 2 * tol ≤ |a - b|))
    (least : ¬ (table.map realRat).Pairwise (fun a b => 2 * tol < |a - b|)) : ladderTol table = some tol := by
  have lower := le_of_mem_gaps ((pairwise_sort_iff (r := (2 * tol ≤ ·)) _).2 apart)
  have attained : 2 * tol ∈ gaps ((table.map realRat).insertionSort (· ≤ ·)) := by
    by_contra missing
    refine least ((pairwise_sort_iff (r := (2 * tol < ·)) _).1
      (pairwise_of_lt_gaps (List.pairwise_insertionSort (· ≤ ·) _) fun gap mem => ?_))
    exact lt_of_le_of_ne (lower gap mem) fun same => missing (same ▸ mem)
  rw [ladderTol, List.min?_eq_some_iff.2 ⟨attained, lower⟩, Option.map_some]
  exact congrArg some (by ring)

theorem pairwise_map_realRat_iff {r : Rat → Prop} (table : List Real64) :
    (table.map realRat).Pairwise (fun a b => r |a - b|) ↔
      ∀ i k, i < k → k < table.length → r |realRat (table.getD i 0) - realRat (table.getD k 0)| := by
  rw [List.pairwise_map, List.pairwise_iff_getElem]
  constructor
  · intro apart i k before inside
    rw [List.getD_eq_getElem _ _ (before.trans inside), List.getD_eq_getElem _ _ inside]
    exact apart i k _ _ before
  · intro apart i k hi hk before
    have := apart i k before hk
    rwa [List.getD_eq_getElem _ _ hi, List.getD_eq_getElem _ _ hk] at this

/-! ### The nearest entry (R392) -/

/-- The distance of a voltage from the table's entry `j`. -/
def entryDistance (v : Rat) (table : List Real64) (j : Nat) : Rat := |v - realRat (table.getD j 0)|

/-- The table's entry nearest a voltage, the lowest index on a tie. -/
structure FirstNearest (v : Rat) (table : List Real64) (j : Nat) : Prop where
  inside : j < table.length
  nearest : ∀ k < table.length, entryDistance v table j ≤ entryDistance v table k
  first : ∀ k < j, entryDistance v table j < entryDistance v table k

theorem FirstNearest.unique {v : Rat} {table : List Real64} {i j : Nat} (hi : FirstNearest v table i)
    (hj : FirstNearest v table j) : i = j := by
  rcases lt_trichotomy i j with before | same | after
  · exact absurd (hi.nearest j hj.inside) (not_le.2 (hj.first i before))
  · exact same
  · exact absurd (hj.nearest i hi.inside) (not_le.2 (hi.first j after))

/-- The search finds it: the entries from the second on compete with the first, which wins a tie. -/
theorem nearest_spec (v : Rat) (table : List Real64) : ∀ i, table ≠ [] →
    ∃ j, FirstNearest v table j ∧ nearest v table i = some (i + j, entryDistance v table j) := by
  induction table with
  | nil => exact fun _ empty => absurd rfl empty
  | cons x rest ih =>
    intro i _
    by_cases alone : rest = []
    · subst alone
      refine ⟨0, ⟨Nat.one_pos, fun k inside => ?_, fun k before => absurd before (Nat.not_lt_zero k)⟩, rfl⟩
      rw [Nat.lt_one_iff.1 inside]
    · obtain ⟨j, found, eq⟩ := ih (i + 1) alone
      rw [nearest, eq]
      by_cases nearer : entryDistance v rest j < entryDistance v (x :: rest) 0
      · refine ⟨j + 1, ⟨Nat.succ_lt_succ found.inside, ?_, ?_⟩, (if_pos nearer).trans ?_⟩
        · rintro (_ | k) inside
          · exact nearer.le
          · exact found.nearest k (Nat.lt_of_succ_lt_succ inside)
        · rintro (_ | k) before
          · exact nearer
          · exact found.first k (Nat.lt_of_succ_lt_succ before)
        · rw [Nat.add_right_comm, Nat.add_assoc]
          rfl
      · refine ⟨0, ⟨Nat.succ_pos _, ?_, fun k before => absurd before (Nat.not_lt_zero k)⟩, if_neg nearer⟩
        rintro (_ | k) inside
        · exact le_rfl
        · exact (not_lt.1 nearer).trans (found.nearest k (Nat.lt_of_succ_lt_succ inside))

theorem nearest_eq {v : Rat} {table : List Real64} {j : Nat} (h : FirstNearest v table j) :
    nearest v table 0 = some (j, entryDistance v table j) := by
  obtain ⟨k, found, eq⟩ := nearest_spec v table 0 (List.ne_nil_of_length_pos (Nat.zero_lt_of_lt h.inside))
  rw [eq, found.unique h, Nat.zero_add]

theorem ladder_of_infinite (table : List Real64) {v : Real64} (infinite : realFinite v = false) : ladder table v = 0 := by
  unfold ladder
  split
  · rw [infinite]; rfl
  · rfl

/-- Settles O40. -/
theorem ladderNearest : Obligations.LadderNearest := by
  refine ⟨fun table v => ladder_of_infinite table, ?_⟩
  rintro table v tol j finite apart ⟨i, k, before, inside, gap⟩ hj nearest first
  have tolerance : ladderTol table = some tol :=
    ladderTol_eq ((pairwise_map_realRat_iff (r := (2 * tol ≤ ·)) table).2 apart) fun wider =>
      ((pairwise_map_realRat_iff (r := (2 * tol < ·)) table).1 wider i k before inside).ne gap
  have entry := nearest_eq (v := realRat v) ⟨hj, nearest, first⟩
  simp only [ladder, tolerance, entry, finite, Bool.true_and, decide_eq_true_eq]
  rfl

end Sys2Proof.Machine

/-! SUPPORT. Rounding once to REAL_FMT is rounding to nearest, ties to even, in every legal format (R9, R13). A magnitude is
measured in units of `2^-1074`, so that the format's values are the whole numbers that `FormatHolds` admits. -/

namespace Sys2Proof.Machine

/-! ### The significand that is chosen -/

/-- `m` units of the last place `2^k` of the binade of the value `v` are what `v` rounds to. -/
structure Rounding (f : RealFmt) (v : Rat) (k m : Nat) : Prop where
  fits : m ≤ 2 ^ f.precision
  least : leastPlace f ≤ k
  nearest : |(m : Rat) - v / 2 ^ k| ≤ 1 / 2
  even : |(m : Rat) - v / 2 ^ k| = 1 / 2 → m % 2 = 0
  binade : k = leastPlace f ∨ (2 : Rat) ^ (f.precision - 1) ≤ v / 2 ^ k

/-- A rational's magnitude in units. -/
def ratUnits (q : Rat) : Rat := |q| * 2 ^ 1074

/-- The units where a format overflows. -/
def overflowUnits (f : RealFmt) : Nat := 2 ^ (f.maxExponent + 1075)

theorem rounding_of_ne {f : RealFmt} (legal : f.legal = true) {q : Rat} (nonzero : q ≠ 0) :
    ∃ k m : Nat, Rounding f (ratUnits q) k m ∧
      (overflowUnits f ≤ m * 2 ^ k → realFinite (roundRat f q) = false) ∧
      (m * 2 ^ k < overflowUnits f → realFinite (roundRat f q) = true ∧ magUnits (realMag (roundRat f q)) = m * 2 ^ k) := by
  obtain ⟨k, m, fits, least, ⟨nearest, even⟩, binade, above, below⟩ :=
    roundMag_spec legal (Int.natAbs_pos.2 (Rat.num_ne_zero.2 nonzero)) q.den_pos
  rw [natAbs_div_den] at nearest even binade
  obtain ⟨mag, -⟩ := roundRat_of_ne (f := f) nonzero
  refine ⟨k, m, ⟨fits, least, nearest, even, binade⟩, fun overflow => ?_, fun below' => ?_⟩
  · rw [realFinite, mag, above overflow]
    decide
  · obtain ⟨finite, units⟩ := below below'
    rw [realFinite_iff_mag, mag]
    exact ⟨finite, units⟩

/-- A format's value is a whole number of units of the last place, or lies below the binade. -/
theorem FormatHolds.grid {f : RealFmt} (legal : f.legal = true) {u : Nat} (holds : FormatHolds f u) (k : Nat) :
    (∃ j, u = j * 2 ^ k) ∨ (k ≠ leastPlace f ∧ u < 2 ^ (f.precision - 1) * 2 ^ k) := by
  obtain ⟨p2, -⟩ := (legal_iff f).1 legal
  obtain ⟨-, m, i, fits, leastI, rfl⟩ := holds
  rcases Nat.lt_or_ge i k with below | above
  · have bound : m * 2 ^ i ≤ 2 ^ (f.precision - 1) * 2 ^ k := by
      calc m * 2 ^ i ≤ 2 ^ f.precision * 2 ^ i := Nat.mul_le_mul_right _ fits
        _ = 2 ^ (f.precision - 1 + (i + 1)) := by rw [← pow_add]; congr 1; omega
        _ ≤ 2 ^ (f.precision - 1 + k) := Nat.pow_le_pow_right (by decide) (by omega)
        _ = 2 ^ (f.precision - 1) * 2 ^ k := pow_add ..
    rcases Nat.eq_or_lt_of_le bound with top | inside
    · exact .inl ⟨_, top⟩
    · exact .inr ⟨by omega, inside⟩
  · refine .inl ⟨m * 2 ^ (i - k), ?_⟩
    rw [Nat.mul_assoc, ← pow_add, Nat.sub_add_cancel above]

/-- Whole numbers that differ are at least 1 apart. -/
theorem one_le_abs_sub {j m : Nat} (other : j ≠ m) : (1 : Rat) ≤ |(j : Rat) - m| := by
  have : (1 : Int) ≤ |(j : Int) - m| := Int.one_le_abs (by omega)
  exact_mod_cast this

theorem abs_scaled (a v : Rat) (k : Nat) : |a * 2 ^ k - v| = 2 ^ k * |a - v / 2 ^ k| := by
  have positive : (0 : Rat) < 2 ^ k := by positivity
  rw [← abs_of_pos positive, ← abs_mul, abs_of_pos positive]
  congr 1
  field_simp

theorem div_mul_two_pow (j k : Nat) : ((j * 2 ^ k : Nat) : Rat) / 2 ^ k = j := by
  push_cast
  exact mul_div_cancel_right₀ _ (by positivity)

section
variable {f : RealFmt} {v : Rat} {k m : Nat} (h : Rounding f v k m)
include h

/-- Above the least binade the significand has its leading bit. -/
theorem Rounding.leading (above : k ≠ leastPlace f) : 2 ^ (f.precision - 1) ≤ m := by
  have low := h.binade.resolve_left above
  have near := (abs_le.1 h.nearest).1
  have : (2 : Rat) ^ (f.precision - 1) < m + 1 := by linarith
  have : 2 ^ (f.precision - 1) < m + 1 := by exact_mod_cast this
  omega

/-- No whole number of units is nearer. -/
theorem Rounding.nearest_int (j : Nat) : |(m : Rat) - v / 2 ^ k| ≤ |(j : Rat) - v / 2 ^ k| := by
  by_cases same : j = m
  · rw [same]
  · have apart := one_le_abs_sub same
    have := abs_sub_le (j : Rat) (v / 2 ^ k) m
    have := h.nearest
    rw [abs_sub_comm (v / 2 ^ k)] at *
    linarith

/-- Another one as near makes a tie. -/
theorem Rounding.tie_int {j : Nat} (other : j ≠ m) (near : |(j : Rat) - v / 2 ^ k| ≤ |(m : Rat) - v / 2 ^ k|) :
    |(m : Rat) - v / 2 ^ k| = 1 / 2 := by
  have apart := one_le_abs_sub other
  have := abs_sub_le (j : Rat) (v / 2 ^ k) m
  have := h.nearest
  rw [abs_sub_comm (v / 2 ^ k)] at *
  linarith

/-- A value below the binade is farther than its least one. -/
theorem Rounding.lt_of_below {u : Nat} (above : k ≠ leastPlace f) (below : u < 2 ^ (f.precision - 1) * 2 ^ k) :
    |(m : Rat) - v / 2 ^ k| < |(u : Rat) / 2 ^ k - v / 2 ^ k| := by
  have low := h.binade.resolve_left above
  have scaled : (u : Rat) / 2 ^ k < 2 ^ (f.precision - 1) := by
    rw [div_lt_iff₀ (by positivity)]
    exact_mod_cast below
  have leading := h.nearest_int (2 ^ (f.precision - 1))
  push_cast at leading
  rw [abs_of_nonpos (sub_nonpos.2 low)] at leading
  rw [abs_of_neg (by linarith : (u : Rat) / 2 ^ k - v / 2 ^ k < 0)]
  linarith

/-- No value of the format is nearer. -/
theorem Rounding.nearest_value (legal : f.legal = true) {u : Nat} (holds : FormatHolds f u) :
    |((m * 2 ^ k : Nat) : Rat) - v| ≤ |(u : Rat) - v| := by
  have scale : (u : Rat) = u / 2 ^ k * 2 ^ k := (div_mul_cancel₀ _ (by positivity)).symm
  push_cast
  rw [scale, abs_scaled, abs_scaled]
  refine mul_le_mul_of_nonneg_left ?_ (by positivity)
  rcases holds.grid legal k with ⟨j, rfl⟩ | ⟨above, below⟩
  · rw [div_mul_two_pow]
    exact h.nearest_int j
  · exact (h.lt_of_below above below).le

/-- Another value as near makes a tie, which is decided for the even significand. -/
theorem Rounding.tie_value (legal : f.legal = true) {u : Nat} (holds : FormatHolds f u) (other : u ≠ m * 2 ^ k)
    (near : |(u : Rat) - v| ≤ |((m * 2 ^ k : Nat) : Rat) - v|) :
    |((m * 2 ^ k : Nat) : Rat) - v| = 2 ^ k / 2 ∧ m % 2 = 0 := by
  have scale : (u : Rat) = u / 2 ^ k * 2 ^ k := (div_mul_cancel₀ _ (by positivity)).symm
  push_cast at near ⊢
  rw [scale, abs_scaled, abs_scaled, mul_le_mul_iff_right₀ (by positivity)] at near
  have tie : |(m : Rat) - v / 2 ^ k| = 1 / 2 := by
    rcases holds.grid legal k with ⟨j, rfl⟩ | ⟨above, below⟩
    · rw [div_mul_two_pow] at near
      exact h.tie_int (fun same => other (by rw [same])) near
    · exact absurd near (not_le.2 (h.lt_of_below above below))
  exact ⟨by rw [abs_scaled, tie]; ring, h.even tie⟩

end

/-! ### The overflow midpoint -/

/-- The last place of a format's greatest binade: `2^topPlace` units. -/
def topPlace (f : RealFmt) : Nat := f.maxExponent + 1075 - f.precision

/-- The midpoint between the format's largest value and the next power of two, in units. -/
def midpointUnits (f : RealFmt) : Rat := (2 ^ f.precision - 1 / 2) * 2 ^ topPlace f

theorem overflowUnits_eq {f : RealFmt} (legal : f.legal = true) :
    overflowUnits f = 2 ^ f.precision * 2 ^ topPlace f := by
  obtain ⟨-, p53, -, -⟩ := (legal_iff f).1 legal
  rw [overflowUnits, topPlace, ← pow_add]
  congr 1
  omega

theorem leastPlace_lt_topPlace {f : RealFmt} (legal : f.legal = true) : leastPlace f < topPlace f := by
  obtain ⟨-, p53, e2, -⟩ := (legal_iff f).1 legal
  unfold leastPlace topPlace
  omega

section
variable {f : RealFmt} (legal : f.legal = true)
include legal

theorem two_pow_precision : (2 : Rat) ^ f.precision = 2 * 2 ^ (f.precision - 1) := by
  obtain ⟨p2, -⟩ := (legal_iff f).1 legal
  rw [← pow_succ', Nat.sub_add_cancel (by omega)]

theorem two_le_leading : (2 : Rat) ≤ 2 ^ (f.precision - 1) := by
  obtain ⟨p2, -⟩ := (legal_iff f).1 legal
  exact le_self_pow₀ (by norm_num) (by omega)

variable {v : Rat} {k m : Nat} (h : Rounding f v k m)
include h

/-- Above the greatest binade every significand, with its leading bit, overflows. -/
theorem Rounding.overflow_above (above : topPlace f < k) :
    overflowUnits f ≤ m * 2 ^ k ∧ midpointUnits f < v := by
  have notLeast : k ≠ leastPlace f := ((leastPlace_lt_topPlace legal).trans above).ne'
  have binade : (2 : Rat) * 2 ^ topPlace f ≤ 2 ^ k := by
    rw [← pow_succ']
    exact pow_le_pow_right₀ (by norm_num) above
  have leading : (2 : Rat) ^ (f.precision - 1) ≤ m := by exact_mod_cast h.leading notLeast
  have value := h.binade.resolve_left notLeast
  rw [le_div_iff₀ (by positivity)] at value
  have positive : (0 : Rat) < 2 ^ topPlace f := by positivity
  have := two_le_leading legal
  constructor
  · rw [overflowUnits_eq legal, ← Nat.cast_le (α := Rat)]
    push_cast
    rw [two_pow_precision legal]
    nlinarith
  · rw [midpointUnits, two_pow_precision legal]
    nlinarith

/-- Below the greatest binade nothing overflows. -/
theorem Rounding.overflow_below (below : k < topPlace f) : m * 2 ^ k < overflowUnits f ∧ v < midpointUnits f := by
  have binade : (2 : Rat) * 2 ^ k ≤ 2 ^ topPlace f := by
    rw [← pow_succ']
    exact pow_le_pow_right₀ (by norm_num) below
  have fits : (m : Rat) ≤ 2 ^ f.precision := by exact_mod_cast h.fits
  have value : v ≤ (m + 1 / 2) * 2 ^ k := by
    have := (abs_le.1 h.nearest).1
    rw [← div_le_iff₀ (by positivity)]
    linarith
  have positive : (0 : Rat) < 2 ^ k := by positivity
  have := two_le_leading legal
  rw [two_pow_precision legal] at fits
  constructor
  · rw [overflowUnits_eq legal, ← Nat.cast_lt (α := Rat)]
    push_cast
    rw [two_pow_precision legal]
    nlinarith
  · rw [midpointUnits, two_pow_precision legal]
    nlinarith

/-- In the greatest binade the last significand is odd, so that the midpoint above it overflows. -/
theorem Rounding.overflow_top (top : k = topPlace f) : m * 2 ^ k < overflowUnits f ↔ v < midpointUnits f := by
  obtain ⟨p2, -⟩ := (legal_iff f).1 legal
  obtain ⟨below, above⟩ := abs_le.1 h.nearest
  rw [overflowUnits_eq legal, midpointUnits, ← top, Nat.mul_lt_mul_right (Nat.two_pow_pos k),
    ← div_lt_iff₀ (by positivity : (0 : Rat) < 2 ^ k)]
  constructor
  · intro significand
    by_contra beyond
    have isLast : m + 1 = 2 ^ f.precision := by
      have : (2 : Rat) ^ f.precision < m + 2 := by linarith
      have : 2 ^ f.precision < m + 2 := by exact_mod_cast this
      omega
    have tie : |(m : Rat) - v / 2 ^ k| = 1 / 2 := by
      have : (m : Rat) + 1 = 2 ^ f.precision := by exact_mod_cast isLast
      rw [abs_of_nonpos (by linarith)]
      linarith
    have even := h.even tie
    have : 2 ^ f.precision % 2 = 0 := Nat.mod_eq_zero_of_dvd (dvd_pow_self 2 (by omega))
    omega
  · intro value
    have : (m : Rat) < 2 ^ f.precision := by linarith
    exact_mod_cast this

theorem Rounding.overflow_iff : m * 2 ^ k < overflowUnits f ↔ v < midpointUnits f := by
  rcases lt_trichotomy k (topPlace f) with below | top | above
  · exact iff_of_true (h.overflow_below legal below).1 (h.overflow_below legal below).2
  · exact h.overflow_top legal top
  · exact iff_of_false (not_lt.2 (h.overflow_above legal above).1) (h.overflow_above legal above).2.not_gt

end

/-- The midpoint as R13's format has it. -/
theorem midpointUnits_eq {f : RealFmt} (legal : f.legal = true) : midpointUnits f =
    (2 ^ ((f.maxExponent : Int) + 1) - 2 ^ ((f.maxExponent : Int) - (f.precision : Int))) * 2 ^ 1074 := by
  obtain ⟨-, p53, -, -⟩ := (legal_iff f).1 legal
  have units : (2 : Rat) ^ 1074 = 2 ^ ((1074 : Nat) : Int) := (zpow_natCast 2 1074).symm
  have half : (1 / 2 : Rat) = 2 ^ (-1 : Int) := by norm_num
  have top : ((topPlace f : Nat) : Int) = f.maxExponent + 1075 - f.precision := by unfold topPlace; omega
  rw [midpointUnits, units, half, sub_mul, sub_mul, ← zpow_natCast 2 f.precision, ← zpow_natCast 2 (topPlace f), top,
    ← zpow_add₀ two_ne_zero, ← zpow_add₀ two_ne_zero, ← zpow_add₀ two_ne_zero, ← zpow_add₀ two_ne_zero]
  congr 2 <;> push_cast <;> ring

theorem midpointUnits_pos {f : RealFmt} (legal : f.legal = true) : 0 < midpointUnits f := by
  have := two_le_leading legal
  rw [midpointUnits, two_pow_precision legal]
  exact mul_pos (by linarith) (by positivity)

/-! ### Signed values -/

theorem realRat_sign (x : Real64) : if realSign x then realRat x ≤ 0 else 0 ≤ realRat x := by
  by_cases finite : realFinite x = true
  · rw [realRat_eq_units finite, realUnits]
    split
    · exact div_nonpos_of_nonpos_of_nonneg (by simp) (by positivity)
    · exact div_nonneg (by simp) (by positivity)
  · rw [realRat, if_neg finite]
    split <;> exact le_rfl

/-- Rounding keeps the sign. -/
theorem roundRat_mul_nonneg (f : RealFmt) (q : Rat) : 0 ≤ realRat (roundRat f q) * q := by
  by_cases zero : q = 0
  · rw [zero, mul_zero]
  · have sign := realRat_sign (roundRat f q)
    rw [(roundRat_of_ne zero).2] at sign
    by_cases negative : q < 0
    · exact mul_nonneg_of_nonpos_of_nonpos (by simpa [negative] using sign) negative.le
    · exact mul_nonneg (by simpa [negative] using sign) (not_lt.1 negative)

/-- Of values of one sign the magnitudes are as far apart as the values. -/
theorem abs_sub_of_mul_nonneg {a b : Rat} (h : 0 ≤ a * b) : |a - b| = |(|a| - |b|)| := by
  rcases mul_nonneg_iff.1 h with ⟨ha, hb⟩ | ⟨ha, hb⟩
  · rw [abs_of_nonneg ha, abs_of_nonneg hb]
  · rw [abs_of_nonpos ha, abs_of_nonpos hb, ← abs_neg, neg_sub, neg_sub_neg]

/-- The distance of a finite REAL from a rational is at least that of their magnitudes, in units. -/
theorem abs_units_sub_le {x : Real64} (finite : realFinite x = true) (q : Rat) :
    |(magUnits (realMag x) : Rat) - ratUnits q| ≤ |realRat x - q| * 2 ^ 1074 := by
  rw [← abs_realRat finite, ratUnits, ← sub_mul, abs_mul, abs_of_pos (pow_pos two_pos 1074 : (0 : Rat) < 2 ^ 1074)]
  exact mul_le_mul_of_nonneg_right (abs_abs_sub_abs_le _ _) (by positivity)

theorem abs_roundRat_sub {f : RealFmt} {q : Rat} (finite : realFinite (roundRat f q) = true) :
    |realRat (roundRat f q) - q| * 2 ^ 1074 = |(magUnits (realMag (roundRat f q)) : Rat) - ratUnits q| := by
  rw [← abs_realRat finite, ratUnits, ← sub_mul, abs_mul, abs_of_pos (pow_pos two_pos 1074 : (0 : Rat) < 2 ^ 1074),
    abs_sub_of_mul_nonneg (roundRat_mul_nonneg f q)]

/-! ### What rounding answers -/

theorem ratUnits_zero : ratUnits 0 = 0 := by rw [ratUnits, abs_zero, zero_mul]

/-- A rounding is finite exactly below the overflow midpoint. -/
theorem realFinite_roundRat_iff {f : RealFmt} (legal : f.legal = true) (q : Rat) :
    realFinite (roundRat f q) = true ↔ ratUnits q < midpointUnits f := by
  by_cases zero : q = 0
  · rw [zero, roundRat_zero, ratUnits_zero]
    exact iff_of_true realFinite_zero64 (midpointUnits_pos legal)
  · obtain ⟨k, m, rounding, infinite, finite⟩ := rounding_of_ne legal zero
    rw [← rounding.overflow_iff legal]
    refine ⟨fun isFinite => ?_, fun below => (finite below).1⟩
    by_contra overflow
    rw [infinite (not_lt.1 overflow)] at isFinite
    cases isFinite

/-- What a finite rounding is, in units. -/
theorem units_of_finite {f : RealFmt} (legal : f.legal = true) {q : Rat} (nonzero : q ≠ 0)
    (isFinite : realFinite (roundRat f q) = true) :
    ∃ k m : Nat, Rounding f (ratUnits q) k m ∧ magUnits (realMag (roundRat f q)) = m * 2 ^ k := by
  obtain ⟨k, m, rounding, -, finite⟩ := rounding_of_ne legal nonzero
  have below := (rounding.overflow_iff legal).2 ((realFinite_roundRat_iff legal q).1 isFinite)
  exact ⟨k, m, rounding, (finite below).2⟩

/-- Two values as near a third lie on its two sides. -/
theorem mirrored_of_tie {q r y : Rat} (near : |r - q| = |y - q|) (other : y ≠ r) : y = 2 * q - r := by
  rcases abs_eq_abs.1 near with same | mirrored
  · exact absurd (by linarith) other
  · linarith

section
variable {f : RealFmt} (legal : f.legal = true) {q : Rat} (isFinite : realFinite (roundRat f q) = true)
include legal isFinite

/-- No finite value of the format is nearer. -/
theorem roundRat_nearest {y : Real64} (finite : realFinite y = true) (value : inFormat f y = true) :
    |realRat (roundRat f q) - q| ≤ |realRat y - q| := by
  by_cases zero : q = 0
  · rw [zero, roundRat_zero, realRat_zero64, sub_zero, abs_zero]
    exact abs_nonneg _
  · obtain ⟨k, m, rounding, units⟩ := units_of_finite legal zero isFinite
    have nearest := rounding.nearest_value legal ((inFormat_iff legal finite).1 value)
    rw [← units, ← abs_roundRat_sub isFinite] at nearest
    exact le_of_mul_le_mul_right (nearest.trans (abs_units_sub_le finite q)) (by positivity)

/-- On a tie the significand is even. -/
theorem roundRat_tie {y : Real64} (finite : realFinite y = true) (value : inFormat f y = true)
    (near : |realRat (roundRat f q) - q| = |realRat y - q|) (other : realRat y ≠ realRat (roundRat f q)) :
    ∃ k m : Nat, Rounding f (ratUnits q) k (2 * m) ∧ magUnits (realMag (roundRat f q)) = 2 * m * 2 ^ k ∧
      |realRat y - realRat (roundRat f q)| * 2 ^ 1074 = 2 ^ k := by
  have nonzero : q ≠ 0 := by
    rintro rfl
    rw [roundRat_zero, realRat_zero64, sub_zero, sub_zero, abs_zero] at near
    exact other (by rw [roundRat_zero, realRat_zero64, abs_eq_zero.1 near.symm])
  obtain ⟨k, m, rounding, units⟩ := units_of_finite legal nonzero isFinite
  have distance := abs_roundRat_sub isFinite
  have unitsY := abs_units_sub_le finite q
  rw [← near, distance, units] at unitsY
  have mirrored := mirrored_of_tie near other
  have otherUnits : magUnits (realMag y) ≠ m * 2 ^ k := by
    intro same
    have abs_eq : |realRat y| = |realRat (roundRat f q)| := by
      refine mul_right_cancel₀ (pow_ne_zero 1074 two_ne_zero) ?_
      rw [abs_realRat finite, abs_realRat isFinite, same, units]
    rcases abs_eq_abs.1 abs_eq with equal | opposite
    · exact other equal
    · exact nonzero (by linarith)
  obtain ⟨tie, even⟩ := rounding.tie_value legal ((inFormat_iff legal finite).1 value) otherUnits unitsY
  obtain ⟨n, rfl⟩ : ∃ n, m = 2 * n := ⟨m / 2, by omega⟩
  refine ⟨k, n, rounding, units, ?_⟩
  have double : realRat y - realRat (roundRat f q) = -(2 * (realRat (roundRat f q) - q)) := by linarith
  rw [double, abs_neg, abs_mul, abs_two, mul_assoc, distance, units, tie]
  ring

end

/-- An even significand makes the REAL an even multiple of its last place. -/
theorem exists_even_multiple {x : Real64} (finite : realFinite x = true) {k m : Nat} {d : Rat}
    (units : magUnits (realMag x) = 2 * m * 2 ^ k) (step : d * 2 ^ 1074 = 2 ^ k) :
    ∃ n : Int, realRat x = 2 * n * d := by
  have unit : d = 2 ^ k / 2 ^ 1074 := (eq_div_iff (pow_ne_zero _ two_ne_zero)).2 step
  rw [realRat_eq_units finite, realUnits, units, unit]
  generalize (2 : Rat) ^ 1074 = scale
  cases realSign x
  · exact ⟨m, by rw [if_neg Bool.false_ne_true]; push_cast; ring⟩
  · exact ⟨-m, by rw [if_pos rfl]; push_cast; ring⟩

/-- In binary64 the significand's last bit is the pattern's. -/
theorem getLsbD_zero_of_binary64 {x : Real64} {v : Rat} {k m : Nat} (h : Rounding .binary64 v k (2 * m))
    (units : magUnits (realMag x) = 2 * m * 2 ^ k) : x.getLsbD 0 = false := by
  have leading : k = 0 ∨ 2 ^ 52 ≤ 2 * m := by
    by_cases least : k = leastPlace .binary64
    · exact .inl least
    · exact .inr (h.leading least)
  have mag : realMag x = k * 2 ^ 52 + 2 * m :=
    magUnits_strictMono.injective (units.trans (magUnits_binade k (2 * m) h.fits leading).symm)
  have parity : x.toNat % 2 = 0 := by unfold realMag at mag; omega
  rw [BitVec.getLsbD, Nat.testBit_zero, parity]
  rfl

/-- A REAL is converted to a format by rounding its value; a zero, an infinity and a NaN stay as they are. -/
theorem toFormat_eq (f : RealFmt) (x : Real64) : toFormat f x = if realRat x = 0 then x else roundRat f (realRat x) := by
  by_cases finite : realFinite x = true
  · rw [toFormat, if_pos finite]
    by_cases negZero : x = negZero64
    · subst negZero
      rw [if_pos realRat_negZero64]
      rfl
    · have number : realNum x = .fin (realRat x) := by
        simp [realNum, realNaN_of_finite finite, finite, negZero]
      rw [number, Num.round]
      split
      case isTrue zero => rw [zero, roundRat_zero, eq_zero_of_realRat finite negZero zero]
      case isFalse => rfl
  · rw [toFormat, if_neg finite, realRat, if_neg finite, if_pos rfl]

/-- Settles O59. -/
theorem roundingIsNearest : Obligations.RoundingIsNearest := by
  rintro f q r legal rfl
  refine ⟨?_, inFormat_roundRat legal q, fun isFinite y finite value =>
    ⟨roundRat_nearest legal isFinite finite value, fun near other => ?_⟩, toFormat_eq f,
    fun x => decide_eq_true (toFormat_binary64 x)⟩
  · rw [realFinite_roundRat_iff legal, midpointUnits_eq legal, ratUnits]
    exact mul_lt_mul_iff_left₀ (pow_pos two_pos _)
  · obtain ⟨k, m, rounding, units, step⟩ := roundRat_tie legal isFinite finite value near other
    refine ⟨?_, fun binary64 => by subst binary64; exact getLsbD_zero_of_binary64 rounding units⟩
    exact exists_even_multiple isFinite units step

end Sys2Proof.Machine

/-! SUPPORT. Rounding keeps the order and the format's own values; the voltages (R253, R256) and the scaled temperatures
(R317, R318) as its uses. -/

namespace Sys2Proof.Machine

/-! ### The order of roundings (R13) -/

/-- A rounding's magnitude depends on the magnitude alone. -/
theorem realMag_roundRat_congr (f : RealFmt) {p q : Rat} (same : |p| = |q|) :
    realMag (roundRat f p) = realMag (roundRat f q) := by
  rcases abs_eq_abs.1 same with rfl | rfl
  · rfl
  · by_cases zero : q = 0
    · rw [zero, neg_zero]
    · rw [(roundRat_of_ne zero).1, (roundRat_of_ne (neg_ne_zero.2 zero)).1, Rat.neg_num, Rat.neg_den, Int.natAbs_neg]

theorem realMag_roundRat_le (f : RealFmt) (q : Rat) : realMag (roundRat f q) ≤ infMag := by
  by_cases zero : q = 0
  · rw [zero, roundRat_zero]
    decide
  · rw [(roundRat_of_ne zero).1]
    exact roundMag_le ..

/-- A value as near the greater of two as the other lies above their midpoint, and conversely. -/
theorem mid_le_of_nearer {a b v : Rat} (lt : a < b) (near : |b - v| ≤ |a - v|) : a + b ≤ 2 * v := by
  have := sq_le_sq.2 near
  nlinarith

theorem le_mid_of_nearer {a b v : Rat} (lt : a < b) (near : |a - v| ≤ |b - v|) : 2 * v ≤ a + b := by
  have := sq_le_sq.2 near
  nlinarith

section
variable {f : RealFmt} (legal : f.legal = true)
include legal

/-- A larger magnitude is not rounded to a smaller one: both are the nearest, so they could only cross at one value. -/
theorem realMag_roundRat_mono {p q : Rat} (le : |p| ≤ |q|) :
    realMag (roundRat f p) ≤ realMag (roundRat f q) := by
  by_cases zero : p = 0
  · rw [zero, roundRat_zero]
    exact Nat.zero_le _
  have zero' : q ≠ 0 := fun h => zero (abs_nonpos_iff.1 (by simpa [h] using le))
  by_cases finiteQ : realFinite (roundRat f q) = true
  · have units : ratUnits p ≤ ratUnits q := mul_le_mul_of_nonneg_right le (by positivity)
    have finiteP : realFinite (roundRat f p) = true :=
      (realFinite_roundRat_iff legal p).2 (units.trans_lt ((realFinite_roundRat_iff legal q).1 finiteQ))
    by_contra crossed
    obtain ⟨k, m, roundingP, unitsP⟩ := units_of_finite legal zero finiteP
    obtain ⟨l, n, roundingQ, unitsQ⟩ := units_of_finite legal zero' finiteQ
    have nearP := roundingP.nearest_value legal ((inFormat_iff legal finiteQ).1 (inFormat_roundRat legal q))
    have nearQ := roundingQ.nearest_value legal ((inFormat_iff legal finiteP).1 (inFormat_roundRat legal p))
    have below : ((magUnits (realMag (roundRat f q)) : Nat) : Rat) < magUnits (realMag (roundRat f p)) := by
      exact_mod_cast magUnits_strictMono (not_le.1 crossed)
    rw [← unitsP] at nearP
    rw [← unitsQ] at nearQ
    have aboveMid := mid_le_of_nearer below nearP
    have belowMid := le_mid_of_nearer below nearQ
    have same : ratUnits p = ratUnits q := by linarith
    exact crossed (realMag_roundRat_congr f (mul_right_cancel₀ (pow_ne_zero 1074 two_ne_zero) same)).le
  · rw [realFinite_iff_mag, not_lt] at finiteQ
    exact (realMag_roundRat_le f p).trans finiteQ

end

/-- Rounding the value of a REAL of the format gives that value back; a zero's sign is lost. -/
theorem realKey_roundRat_realRat {f : RealFmt} {x : Real64} (finite : realFinite x = true) (value : inFormat f x = true) :
    realKey (roundRat f (realRat x)) = realKey x := by
  by_cases zero : realRat x = 0
  · have keyless : realKey x = 0 := by
      by_cases negZero : x = negZero64
      · rw [negZero]; decide
      · rw [eq_zero_of_realRat finite negZero zero]; decide
    rw [zero, roundRat_zero, keyless]
    decide
  · have := toFormat_eq f x
    rw [if_neg zero, of_decide_eq_true value] at this
    rw [← this]

theorem realKey_roundRat (f : RealFmt) (q : Rat) :
    realKey (roundRat f q) = if q < 0 then -(realMag (roundRat f q) : Int) else realMag (roundRat f q) := by
  by_cases zero : q = 0
  · rw [zero, roundRat_zero]
    rfl
  · rw [realKey, (roundRat_of_ne zero).2]
    simp only [decide_eq_true_eq]

section
variable {f : RealFmt} (legal : f.legal = true)
include legal

/-- Rounding keeps the order, of values that round to infinities too. -/
theorem realKey_roundRat_mono {p q : Rat} (le : p ≤ q) : realKey (roundRat f p) ≤ realKey (roundRat f q) := by
  rw [realKey_roundRat, realKey_roundRat]
  by_cases negP : p < 0 <;> by_cases negQ : q < 0
  · have := realMag_roundRat_mono legal (p := q) (q := p) (by rw [abs_of_neg negP, abs_of_neg negQ]; linarith)
    rw [if_pos negP, if_pos negQ]
    omega
  · rw [if_pos negP, if_neg negQ]
    omega
  · exact absurd (le.trans_lt negQ) negP
  · have := realMag_roundRat_mono legal (p := p) (q := q)
      (by rwa [abs_of_nonneg (not_lt.1 negP), abs_of_nonneg (not_lt.1 negQ)])
    rw [if_neg negP, if_neg negQ]
    omega

theorem realLe_roundRat {p q : Rat} (le : p ≤ q) : realLe (roundRat f p) (roundRat f q) = true := by
  simp [realLe, realNaN_roundRat, realKey_roundRat_mono legal le]

/-! ### The format's own values -/

theorem realLe_roundRat_of_le {x : Real64} (finite : realFinite x = true) (value : inFormat f x = true) {q : Rat}
    (le : realRat x ≤ q) : realLe x (roundRat f q) = true := by
  have := realKey_roundRat_mono legal le
  rw [realKey_roundRat_realRat finite value] at this
  simp [realLe, realNaN_roundRat, realNaN_of_finite finite, this]

theorem realLe_of_roundRat_le {x : Real64} (finite : realFinite x = true) (value : inFormat f x = true) {q : Rat}
    (le : q ≤ realRat x) : realLe (roundRat f q) x = true := by
  have := realKey_roundRat_mono legal le
  rw [realKey_roundRat_realRat finite value] at this
  simp [realLe, realNaN_roundRat, realNaN_of_finite finite, this]

/-- A value of no larger magnitude than one of the format's is rounded to a finite one. -/
theorem realFinite_roundRat_of_le {x : Real64} (finite : realFinite x = true) (value : inFormat f x = true) {q : Rat}
    (le : |q| ≤ |realRat x|) : realFinite (roundRat f q) = true := by
  have mag := realMag_roundRat_mono legal le
  have key := realKey_roundRat_realRat finite value
  rw [realFinite_iff_key, ← key, realKey] at finite
  rw [realFinite_iff_mag]
  split at finite <;> omega

theorem realRat_roundRat_realRat {x : Real64} (finite : realFinite x = true) (value : inFormat f x = true) :
    realRat (roundRat f (realRat x)) = realRat x := by
  have isFinite := realFinite_roundRat_of_le legal finite value le_rfl
  exact le_antisymm ((realLe_iff isFinite finite).1 (realLe_of_roundRat_le legal finite value le_rfl))
    ((realLe_iff finite isFinite).1 (realLe_roundRat_of_le legal finite value le_rfl))

/-- Up to 7/8 of the next power of two every value is rounded to a finite one. -/
theorem realFinite_roundRat_of_lt {q : Rat} (lt : |q| < 7 * 2 ^ (f.maxExponent - 2)) :
    realFinite (roundRat f q) = true := by
  obtain ⟨p2, -, e2, -⟩ := (legal_iff f).1 legal
  rw [realFinite_roundRat_iff legal, midpointUnits_eq legal, ratUnits]
  refine mul_lt_mul_of_pos_right (lt.trans_le ?_) (pow_pos two_pos _)
  obtain ⟨e, he⟩ := Nat.exists_eq_add_of_le e2
  have top : (2 : Rat) ^ ((f.maxExponent : Int) + 1) = 8 * 2 ^ e := by
    rw [he, show (((2 + e : Nat) : Int) + 1) = ((e + 3 : Nat) : Int) by omega, zpow_natCast, pow_add]
    ring
  have step : (2 : Rat) ^ ((f.maxExponent : Int) - f.precision) ≤ 2 ^ e := by
    rw [← zpow_natCast]
    exact zpow_le_zpow_right₀ (by norm_num) (by omega)
  rw [top, show f.maxExponent - 2 = e by omega]
  linarith

end

/-! ### Temperatures (R317, R318) -/

section
variable {c : Config} (legal : c.wellFormed = true)
include legal

/-- The scaled temperature lies in the sensor's range: the exact value does, and the range's bounds are of the format. -/
theorem scaleTemp_inRange (raw : BitVec 11) :
    realLe c.minTemp (scaleTemp c raw) = true ∧ realLe (scaleTemp c raw) c.maxTemp = true := by
  have format := legal_of_wellFormed legal
  obtain ⟨minFinite, minValue⟩ := finiteIn_of_wellFormed legal (x := c.minTemp) (by simp [Config.reals])
  obtain ⟨maxFinite, maxValue⟩ := finiteIn_of_wellFormed legal (x := c.maxTemp) (by simp [Config.reals])
  obtain ⟨-, -, -, -, ordered, -⟩ := (wellFormed_iff c).1 legal
  rw [Config.tempOrdered, realLt_iff minFinite maxFinite] at ordered
  have share : (raw.toNat : Rat) / 2047 ≤ 1 := by
    rw [div_le_one (by norm_num)]
    exact_mod_cast Nat.le_of_lt_succ raw.isLt
  have share' : (0 : Rat) ≤ raw.toNat / 2047 := by positivity
  exact ⟨realLe_roundRat_of_le format minFinite minValue (by nlinarith),
    realLe_of_roundRat_le format maxFinite maxValue (by nlinarith)⟩

end

/-- Settles O31. -/
theorem tempAlwaysInRange : Obligations.TempAlwaysInRange := by
  intro c raw t w ts legal
  have format := legal_of_wellFormed legal
  obtain ⟨minFinite, minValue⟩ := finiteIn_of_wellFormed legal (x := c.minTemp) (by simp [Config.reals])
  obtain ⟨maxFinite, maxValue⟩ := finiteIn_of_wellFormed legal (x := c.maxTemp) (by simp [Config.reals])
  obtain ⟨low, high⟩ := scaleTemp_inRange legal raw
  refine ⟨low, high, ?_, ?_, ?_⟩
  · have bottom : scaleTemp c 0 = roundRat c.realFmt (realRat c.minTemp) := by
      rw [scaleTemp]
      congr 1
      simp
    rw [bottom, realRat_roundRat_realRat format minFinite minValue]
  · have top : scaleTemp c 2047 = roundRat c.realFmt (realRat c.maxTemp) := by
      rw [scaleTemp]
      congr 1
      have : (2047 : BitVec 11).toNat = 2047 := rfl
      rw [this]
      push_cast
      ring
    rw [top, realRat_roundRat_realRat format maxFinite maxValue]
  · obtain ⟨low, high⟩ := scaleTemp_inRange legal (rawTemp (packets c w))
    simp only [Temp.decodeFrame, low, high]
    split
    · rfl
    · split <;> rfl

/-! ### Voltages (R253, R256) -/

theorem abs_roundRat_le {f : RealFmt} (legal : f.legal = true) {q : Rat} (finite : realFinite (roundRat f q) = true) :
    |realRat (roundRat f q)| ≤ 2 * |q| := by
  have nearest := roundRat_nearest legal finite realFinite_zero64 (inFormat_zero64 f)
  rw [realRat_zero64, zero_sub, abs_neg] at nearest
  have := abs_sub_abs_le_abs_sub (realRat (roundRat f q)) q
  linarith

theorem realRat_roundRat_neg (f : RealFmt) (q : Rat) : realRat (roundRat f (-q)) = -realRat (roundRat f q) := by
  by_cases zero : q = 0
  · rw [zero, neg_zero, roundRat_zero, realRat_zero64, neg_zero]
  · have mag : realMag (roundRat f (-q)) = realMag (roundRat f q) := realMag_roundRat_congr f (abs_neg q)
    have sign : realSign (roundRat f (-q)) = !realSign (roundRat f q) := by
      rw [(roundRat_of_ne zero).2, (roundRat_of_ne (neg_ne_zero.2 zero)).2]
      rcases lt_or_gt_of_ne zero with negative | positive
      · simp [negative, negative.le]
      · simp [positive, positive.le]
    rw [realRat, realRat, realFinite, realFinite, mag, sign]
    cases realSign (roundRat f q) <;> split <;> simp

/-- Each full scale is the rounding of a value below 7 volts, which every legal format holds. -/
theorem fsVolts_eq (f : RealFmt) (pga : BitVec 3) : ∃ q : Rat, 0 < q ∧ q < 7 ∧ fsVolts f pga = roundRat f q := by
  refine ⟨_, ?_, ?_, rfl⟩ <;> split <;> norm_num

theorem fsVolts_spec {f : RealFmt} (legal : f.legal = true) (pga : BitVec 3) : realFinite (fsVolts f pga) = true ∧
    inFormat f (fsVolts f pga) = true ∧ 0 ≤ realRat (fsVolts f pga) ∧ realRat (fsVolts f pga) < 14 := by
  obtain ⟨q, positive, bound, eq⟩ := fsVolts_eq f pga
  have finite : realFinite (roundRat f q) = true := by
    refine realFinite_roundRat_of_lt legal ?_
    rw [abs_of_pos positive]
    exact bound.trans_le (le_mul_of_one_le_right (by norm_num) (one_le_pow₀ (by norm_num)))
  have magnitude := abs_roundRat_le legal finite
  have nonneg := nonneg_of_mul_nonneg_left (roundRat_mul_nonneg f q) positive
  rw [abs_of_pos positive, abs_of_nonneg nonneg] at magnitude
  rw [eq]
  exact ⟨finite, inFormat_roundRat legal q, nonneg, by linarith⟩

theorem abs_toInt_le (a : BitVec 16) : |(a.toInt : Rat)| ≤ 32768 := by
  have low := BitVec.le_toInt a
  have high := BitVec.toInt_lt (x := a)
  have : |a.toInt| ≤ 32768 := abs_le.2 ⟨by omega, by omega⟩
  exact_mod_cast this

/-- The voltages are finite where FS_COUNTS bounds them by the full scale, or the format's range is wide. -/
theorem realFinite_volts {c : Config} (legal : c.realFmt.legal = true) (positive : 0 < c.fsCounts) (a : BitVec 16)
    (enough : 32768 ≤ c.fsCounts ∨ c.realFmt = .binary64) : realFinite (volts c a) = true := by
  obtain ⟨finite, value, nonneg, bound⟩ := fsVolts_spec legal c.adcPga
  have counts : (1 : Rat) ≤ c.fsCounts := by exact_mod_cast positive
  have register := abs_toInt_le a
  have size : |(a.toInt : Rat) * realRat (fsVolts c.realFmt c.adcPga) / c.fsCounts| * c.fsCounts ≤
      32768 * realRat (fsVolts c.realFmt c.adcPga) := by
    rw [abs_div, Nat.abs_cast, div_mul_cancel₀ _ (by positivity), abs_mul, abs_of_nonneg nonneg]
    exact mul_le_mul_of_nonneg_right register nonneg
  rcases enough with full | binary64
  · have full : (32768 : Rat) ≤ c.fsCounts := by exact_mod_cast full
    refine realFinite_roundRat_of_le legal finite value ?_
    rw [abs_of_nonneg nonneg]
    refine le_of_mul_le_mul_right (size.trans ?_) (by positivity : (0 : Rat) < c.fsCounts)
    rw [mul_comm]
    exact mul_le_mul_of_nonneg_left full nonneg
  · refine realFinite_roundRat_of_lt legal ?_
    have wide : (2 : Rat) ^ 17 ≤ 2 ^ (c.realFmt.maxExponent - 2) := by
      rw [binary64]
      exact pow_le_pow_right₀ (by norm_num) (by decide)
    have : |(a.toInt : Rat) * realRat (fsVolts c.realFmt c.adcPga) / c.fsCounts| ≤
        32768 * realRat (fsVolts c.realFmt c.adcPga) :=
      (le_mul_of_one_le_right (abs_nonneg _) counts).trans size
    linarith

/-- Settles O24. -/
theorem voltsOrdered : Obligations.VoltsOrdered := by
  intro c a b legal positive
  obtain ⟨finite, value, nonneg, -⟩ := fsVolts_spec legal c.adcPga
  refine ⟨rfl, rfl, realFinite_volts legal positive a, fun ordered => realLe_roundRat legal ?_, fun counts => ?_⟩
  · have ordered : (a.toInt : Rat) ≤ b.toInt := by exact_mod_cast ordered
    exact div_le_div_of_nonneg_right (mul_le_mul_of_nonneg_right ordered nonneg) (Nat.cast_nonneg _)
  · have least : volts c 0x8000 = roundRat c.realFmt (-realRat (fsVolts c.realFmt c.adcPga)) := by
      have register : (0x8000 : BitVec 16).toInt = -32768 := by decide
      rw [volts, counts, register]
      congr 1
      push_cast
      ring
    rw [least, realRat_roundRat_neg, realRat_roundRat_realRat legal finite value]

end Sys2Proof.Machine

/-! SUPPORT. The PWM's output waveform (R280, R288) and the duty fraction that `pwmset` stores (R281). -/

namespace Sys2Proof.Machine

/-! ### The waveform (R280, R288) -/

/-- In each period of `high ≤ period` high cycles at its start, exactly those are high. -/
theorem countP_range_lt {high period : Nat} (le : high ≤ period) :
    (List.range period).countP (fun k => decide (k < high)) = high := by
  obtain ⟨low, rfl⟩ := Nat.exists_eq_add_of_le le
  have first : (List.range high).countP (fun k => decide (k < high)) = high := by
    rw [List.countP_eq_length.2 fun k mem => decide_eq_true (List.mem_range.1 mem), List.length_range]
  have rest : ((List.range low).map (high + ·)).countP (fun k => decide (k < high)) = 0 := by
    rw [List.countP_map, List.countP_eq_zero]
    intro k _
    simp
  rw [List.range_add, List.countP_append, first, rest, Nat.add_zero]

section
variable {s : State} (legal : s.PwmLegal)
include legal

theorem State.PwmLegal.high_le : s.pwm.value.toNat * s.pwm.divisor.toNat ≤ s.pwmPeriod := by
  obtain ⟨-, -, -, value, -⟩ := legal
  rw [State.pwmPeriod, Nat.mul_comm]
  exact Nat.mul_le_mul_left _ value

theorem State.PwmLegal.period_pos : 0 < s.pwmPeriod := by
  obtain ⟨divisor, -, range, -⟩ := legal
  exact Nat.mul_pos divisor range

theorem State.PwmLegal.duty_eq :
    s.pwmDuty = ((s.pwm.value.toNat * s.pwm.divisor.toNat : Nat) : Rat) / (s.pwmPeriod : Nat) := by
  obtain ⟨divisor, -, range, -⟩ := legal
  have divisor : (s.pwm.divisor.toNat : Rat) ≠ 0 := by exact_mod_cast (Nat.one_le_iff_ne_zero.1 divisor)
  rw [State.pwmDuty, Rat.mkRat_eq_div, State.pwmPeriod]
  push_cast
  rw [mul_comm (s.pwm.divisor.toNat : Rat), mul_div_mul_right _ _ divisor]

end

/-- Within a period the output is high for its first cycles. -/
theorem State.pwmHigh_of_lt {s : State} (enabled : s.pwm.enabled = true) {k : Nat} (lt : k < s.pwmPeriod) :
    s.pwmHigh k = decide (k < s.pwm.value.toNat * s.pwm.divisor.toNat) := by
  rw [State.pwmHigh, enabled, Nat.mod_eq_of_lt lt, Bool.true_and]

/-! ### The duty fraction (R281) -/

theorem realRat_le_iff_key {x y : Real64} (hx : realFinite x = true) (hy : realFinite y = true) :
    realRat x ≤ realRat y ↔ realKey x ≤ realKey y := by
  rw [← realLe_iff hx hy]
  simp [realLe, realNaN_of_finite hx, realNaN_of_finite hy]

theorem realRat_eq_of_key {x y : Real64} (hx : realFinite x = true) (hy : realFinite y = true)
    (same : realKey x = realKey y) : realRat x = realRat y :=
  le_antisymm ((realRat_le_iff_key hx hy).2 same.le) ((realRat_le_iff_key hy hx).2 same.ge)

/-- A conversion rounds the value. -/
theorem realRat_toFormat (f : RealFmt) (x : Real64) : realRat (toFormat f x) = realRat (roundRat f (realRat x)) := by
  rw [toFormat_eq]
  split
  case isTrue zero => rw [zero, roundRat_zero, realRat_zero64]
  case isFalse => rfl

theorem realFinite_one64 : realFinite one64 = true := by decide

section
variable {x : Real64} (finite : realFinite x = true)
include finite

theorem realFinite_clamp01 : realFinite (clamp x zero64 one64) = true :=
  realFinite_clamp (realNaN_of_finite finite) realFinite_zero64 realFinite_one64

theorem realKey_clamp01 : realKey (clamp x zero64 one64) = min (max (realKey x) (realKey zero64)) (realKey one64) :=
  realKey_clamp (realNaN_of_finite finite) realNaN_zero64 (realNaN_of_finite realFinite_one64)

/-- The clamped operand is the clamped value. -/
theorem realRat_clamp01 : realRat (clamp x zero64 one64) = min (max (realRat x) 0) 1 := by
  have key := realKey_clamp01 finite
  have isFinite := realFinite_clamp01 finite
  have ordered : realKey zero64 ≤ realKey one64 := by decide
  rcases le_total (realRat x) 0 with low | nonneg
  · have below : realKey x ≤ realKey zero64 := by
      rwa [← realRat_le_iff_key finite realFinite_zero64, realRat_zero64]
    rw [max_eq_right below, min_eq_left ordered] at key
    rw [realRat_eq_of_key isFinite realFinite_zero64 key, realRat_zero64, max_eq_right low, min_eq_left zero_le_one]
  · have above : realKey zero64 ≤ realKey x := by
      rwa [← realRat_le_iff_key realFinite_zero64 finite, realRat_zero64]
    rw [max_eq_left above] at key
    rw [max_eq_left nonneg]
    rcases le_total (realRat x) 1 with inside | high
    · have below : realKey x ≤ realKey one64 := by
        rwa [← realRat_le_iff_key finite realFinite_one64, realRat_one64]
      rw [min_eq_left below] at key
      rw [realRat_eq_of_key isFinite finite key, min_eq_left inside]
    · have above : realKey one64 ≤ realKey x := by
        rwa [← realRat_le_iff_key realFinite_one64 finite, realRat_one64]
      rw [min_eq_right above] at key
      rw [realRat_eq_of_key isFinite realFinite_one64 key, realRat_one64, min_eq_right high]

end

/-- The product of a duty fraction and a range, truncated, is its floor. -/
theorem onTicks_floor {x : Real64} {r : U32} (low : realLe zero64 x = true) (high : realLe x one64 = true) :
    (onTicks x r).toNat ≤ r.toNat ∧ ((onTicks x r).toNat : Int) = (realRat x * r.toNat).floor := by
  obtain ⟨bound, eq⟩ := onTicks_spec (r := r) low high
  have finite := realFinite_of_between realFinite_zero64 realFinite_one64 low high
  rw [realLe_iff realFinite_zero64 finite, realRat_zero64] at low
  rw [trunc, if_neg (not_lt.2 (mul_nonneg low (Nat.cast_nonneg _)))] at eq
  exact ⟨bound, eq⟩

/-- Settles O26. -/
theorem pwmValue : Obligations.PwmValue := by
  constructor
  · rintro s legal period high rfl rfl
    refine ⟨Rat.mkRat_eq_div .., Rat.mkRat_eq_div .., legal.duty_eq, fun k => ?_, ?_, fun enabled full k => ?_,
      fun enabled k lt => State.pwmHigh_of_lt enabled lt, fun enabled => ?_⟩
    · exact congrArg (fun r => s.pwm.enabled && decide (r < s.pwm.value.toNat * s.pwm.divisor.toNat))
        (Nat.add_mod_right k s.pwmPeriod)
    · rintro (disabled | low) k
      · rw [State.pwmHigh, disabled, Bool.false_and]
      · rw [State.pwmHigh, low]
        simp
    · rw [State.pwmHigh, enabled, full, Nat.mul_comm, ← State.pwmPeriod]
      exact decide_eq_true (Nat.mod_lt k legal.period_pos)
    · refine (List.countP_congr fun k mem => ?_).trans (countP_range_lt legal.high_le)
      rw [State.pwmHigh_of_lt enabled (List.mem_range.1 mem)]
  · intro s x legal finite
    obtain ⟨low, high⟩ := pwmFrac_spec legal (realNaN_of_finite finite)
    obtain ⟨bound, floor⟩ := onTicks_floor (r := s.pwm.range) low high
    have frac : realRat (s.pwmSet x).pwm.frac = realRat (roundRat s.cfg.realFmt (min (max (realRat x) 0) 1)) := by
      rw [← realRat_clamp01 finite, ← realRat_toFormat]
      rfl
    refine ⟨fun nonpos => ?_, fun nonneg inside => ⟨?_, fun binary64 => ?_⟩, fun above => ?_, floor, bound, rfl, rfl, rfl,
      fun n => onTicks_floor low high⟩
    · rw [frac, max_eq_right nonpos, min_eq_left zero_le_one, roundRat_zero, realRat_zero64]
    · rw [frac, max_eq_left nonneg, min_eq_left inside]
    · rw [frac, max_eq_left nonneg, min_eq_left inside, ← realRat_toFormat, binary64, toFormat_binary64]
    · rw [frac, max_eq_left (zero_le_one.trans above), min_eq_right above, ← realRat_one64,
        realRat_roundRat_realRat legal realFinite_one64 (inFormat_one64 legal)]

end Sys2Proof.Machine
